-- ==== Sys2Proof/Word.lean ====
section
/-! DEFINITION. The bit vectors of the block: bytes of the streams and of the cells (00_scope.md R9, R14), and cell
addresses (R10). -/

namespace Sys2Proof

/-- A byte of a stream, of a cell or of a register (00_scope.md R9, R14). -/
abbrev Byte := BitVec 8

/-- A logical cell address, `abus[8:0]` (00_scope.md R10). -/
abbrev CellAddr := BitVec 9

/-- A token of a request: its bytes in wire order (30_encoding.md R70). -/
abbrev Token := List Byte

end Sys2Proof
end

