-- ==== Sys2Proof/Syntax.lean ====
section
/-! DEFINITION. The commands of the wire as syntax: one constructor for each row of spec/opcode_table.json, the two chip
profiles, and the causes of the one exception. -/

namespace Sys2Proof

/-- The chip profiles (00_scope.md R3); on the wire and in the register `chip`, 0 is `P256` and 1 is `P512` (R11, R25). -/
inductive Profile where
  | p256
  | p512
  deriving DecidableEq, Repr

/-- The cause codes of `MalformedRequest` as `err_cause` holds them (60_exceptions.md R144). -/
inductive Cause where
  /-- No error since reset or since the last command started. -/
  | none
  /-- No row of the rule table matches the event (R105). -/
  | noRule
  /-- A command token of two or more bytes (R107). -/
  | badCmd
  /-- A chip token other than `0` or `1` (R108). -/
  | badChip
  /-- A byte that is no hexadecimal digit in an address or value token (R109, R110). -/
  | badHex
  /-- An address at or above `CELLS(chip)`, or a value above 0xFF (R109, R110). -/
  | range
  deriving DecidableEq, Repr

/-- The wire command set, exactly (00_scope.md R6), each command with the fields of its request (30_encoding.md R72). -/
inductive Instr where
  /-- Row `V`: version query (41_commands.md R117). -/
  | version
  /-- Row `R`: dump the whole chip (R118). -/
  | readAll (chip : Profile)
  /-- Row `K`: blank test (R120). -/
  | blankCheck (chip : Profile)
  /-- Row `r`: read one byte (R122). -/
  | readByte (chip : Profile) (addr : CellAddr)
  /-- Row `w`: program one byte (R123). -/
  | program (chip : Profile) (addr : CellAddr) (value : Byte)
  /-- Row `s`: simulate programming one byte (R124). -/
  | simulate (chip : Profile) (addr : CellAddr) (value : Byte)
  deriving DecidableEq, Repr

end Sys2Proof
end

