-- ==== Sys2Proof/WellFormed.lean ====
section
/-! DEFINITION. Which terms of `Instr` are requests of the grammar: the cell address lies below the cell count of the
selected profile (30_encoding.md R76). The value field needs no check beyond its width. -/

namespace Sys2Proof

/-- `CELLS(p)`, the cell count of a profile (00_scope.md R8). -/
def cellCount : Profile → Nat
  | .p256 => 256
  | .p512 => 512

/-- The bound of the address field: `0 ≤ addr < CELLS(chip)` (30_encoding.md R76, 10_state.md R25, R26). -/
def addrInRange (chip : Profile) (addr : CellAddr) : Bool :=
  decide (addr.toNat < cellCount chip)

/-- A request the grammar admits. -/
def Instr.wellFormed : Instr → Bool
  | .version => true
  | .readAll _ => true
  | .blankCheck _ => true
  | .readByte chip addr => addrInRange chip addr
  | .program chip addr _ => addrInRange chip addr
  | .simulate chip addr _ => addrInRange chip addr

end Sys2Proof
end

