-- ==== Sys2Proof/Decode.lean ====
section
/-! DEFINITION. The request encoding of 30_encoding.md, read and written: byte classes, hexadecimal values, tokens, the
decoder of a request line, total on any bytes and rejecting by cause, the encoder, and the numbers a response renders.
This is the grammar as a function of whole lines; the block itself reads a line byte by byte (Machine/Interpreter.lean). -/

namespace Sys2Proof

/-! ### Characters: 7-bit ASCII codes (00_scope.md R14, 93_implementation_defined.md I14) -/

/-- Line feed. -/
abbrev asciiLF : Byte := 0x0A
/-- Carriage return. -/
abbrev asciiCR : Byte := 0x0D
/-- Space. -/
abbrev asciiSP : Byte := 0x20
/-- Horizontal tab. -/
abbrev asciiHT : Byte := 0x09
/-- The digit `0`, the chip token of `P256` (R74). -/
abbrev asciiZero : Byte := 0x30
/-- The digit `1`, the chip token of `P512` (R74). -/
abbrev asciiOne : Byte := 0x31
/-- The status character of an error response (R79). -/
abbrev asciiE : Byte := 0x45

/-- The command byte `V` (R73). -/
abbrev cmdV : Byte := 0x56
/-- The command byte `R` (R73), also the status character of success (R78). -/
abbrev cmdR : Byte := 0x52
/-- The command byte `K` (R73). -/
abbrev cmdK : Byte := 0x4B
/-- The command byte `r` (R73). -/
abbrev cmdr : Byte := 0x72
/-- The command byte `w` (R73). -/
abbrev cmdw : Byte := 0x77
/-- The command byte `s` (R73). -/
abbrev cmds : Byte := 0x73

/-! ### Byte classes and hexadecimal digits -/

/-- `hexval(c)` for a `HEX` byte, `none` for every other byte (30_encoding.md R68, R69). -/
def hexDigit? (c : Byte) : Option Nat :=
  if 0x30 ≤ c.toNat ∧ c.toNat ≤ 0x39 then some (c.toNat - 0x30)
  else if 0x41 ≤ c.toNat ∧ c.toNat ≤ 0x46 then some (c.toNat - 0x41 + 10)
  else if 0x61 ≤ c.toNat ∧ c.toNat ≤ 0x66 then some (c.toNat - 0x61 + 10)
  else none

/-- The classes of 30_encoding.md R68; a `HEX` byte carries its `hexval`. -/
inductive ByteClass where
  | lf
  | delim
  | hex (v : Nat)
  | other
  deriving DecidableEq, Repr

/-- `DELIM`: space, tab or carriage return (R68, 40_interpreter.md R102). -/
def isDelim (c : Byte) : Bool := c = asciiSP || c = asciiHT || c = asciiCR

/-- `class(c)`: every byte falls in exactly one class (R68). -/
def classOf (c : Byte) : ByteClass :=
  if c = asciiLF then .lf
  else if isDelim c then .delim
  else match hexDigit? c with
    | some v => .hex v
    | none => .other

/-- The value of the digits of a token, most significant first, on top of the value `v` of the digits before them. -/
def hexValueFrom (v : Nat) : Token → Option Nat
  | [] => some v
  | c :: cs =>
    match hexDigit? c with
    | some d => hexValueFrom (v * 16 + d) cs
    | none => none

/-- `hexvalue(t)`, an unbounded natural number; `none` when the token holds a byte that is no digit (R75). -/
def hexValue (t : Token) : Option Nat := hexValueFrom 0 t

/-! ### Lines and tokens -/

/-- The bytes before the first LF and the bytes after it; `none` when no LF has arrived (R77). -/
def splitLine : List Byte → Option (List Byte × List Byte)
  | [] => none
  | c :: cs =>
    if c = asciiLF then some ([], cs)
    else match splitLine cs with
      | some (line, rest) => some (c :: line, rest)
      | none => none

/-- The tokens of a line, `cur` being the token already begun: maximal runs of bytes that are no delimiter (R70). -/
def tokensFrom (cur : Token) : List Byte → List Token
  | [] => if cur.isEmpty then [] else [cur]
  | c :: cs =>
    if isDelim c then
      if cur.isEmpty then tokensFrom [] cs else cur :: tokensFrom [] cs
    else tokensFrom (cur ++ [c]) cs

/-- The tokens of a line without its LF. -/
def tokens (line : List Byte) : List Token := tokensFrom [] line

/-! ### Fields -/

/-- The chip field: exactly one byte, `0` or `1` (R74). -/
def chipField (t : Token) : Except Cause Profile :=
  if t = [asciiZero] then .ok .p256
  else if t = [asciiOne] then .ok .p512
  else .error .badChip

/-- A hexadecimal field below `bound` (R75, R76); `BAD_HEX` before `RANGE` (60_exceptions.md R148 (c)). -/
def hexField (bound : Nat) (t : Token) : Except Cause Nat :=
  match hexValue t with
  | none => .error .badHex
  | some v => if v < bound then .ok v else .error .range

/-- The address field, zero-extended into 9 bits (R76). -/
def addrField (chip : Profile) (t : Token) : Except Cause CellAddr :=
  (hexField (cellCount chip) t).map (BitVec.ofNat 9)

/-- The byte field (R76). -/
def valueField (t : Token) : Except Cause Byte :=
  (hexField 0x100 t).map (BitVec.ofNat 8)

/-- The next field of the line; a missing one is `NO_RULE` (R90). -/
def takeField {α : Type} (read : Token → Except Cause α) : List Token → Except Cause (α × List Token)
  | [] => .error .noRule
  | t :: ts => (read t).map (fun v => (v, ts))

/-- The end of the fields: an extra token is `NO_RULE` (R90). -/
def endOfLine (i : Instr) : List Token → Except Cause Instr
  | [] => .ok i
  | _ :: _ => .error .noRule

/-- `R <chip>` and `K <chip>`. -/
def parseScan (make : Profile → Instr) (fields : List Token) : Except Cause Instr :=
  match takeField chipField fields with
  | .error c => .error c
  | .ok (chip, rest) => endOfLine (make chip) rest

/-- `r <chip> <addr>`. -/
def parseRead (fields : List Token) : Except Cause Instr :=
  match takeField chipField fields with
  | .error c => .error c
  | .ok (chip, rest) =>
    match takeField (addrField chip) rest with
    | .error c => .error c
    | .ok (addr, rest') => endOfLine (.readByte chip addr) rest'

/-- `w <chip> <addr> <byte>` and `s <chip> <addr> <byte>`. -/
def parseBurn (make : Profile → CellAddr → Byte → Instr) (fields : List Token) : Except Cause Instr :=
  match takeField chipField fields with
  | .error c => .error c
  | .ok (chip, rest) =>
    match takeField (addrField chip) rest with
    | .error c => .error c
    | .ok (addr, rest') =>
      match takeField valueField rest' with
      | .error c => .error c
      | .ok (value, rest'') => endOfLine (make chip addr value) rest''

/-- The command byte alone selects the command (R88); an unknown one is `NO_RULE` (R89). -/
def parseFields (cmd : Byte) (fields : List Token) : Except Cause Instr :=
  if cmd = cmdV then endOfLine .version fields
  else if cmd = cmdR then parseScan .readAll fields
  else if cmd = cmdK then parseScan .blankCheck fields
  else if cmd = cmdr then parseRead fields
  else if cmd = cmdw then parseBurn .program fields
  else if cmd = cmds then parseBurn .simulate fields
  else .error .noRule

/-- The command token is exactly one byte (R73). -/
def parseTokens (cmd : Token) (fields : List Token) : Except Cause Instr :=
  match cmd with
  | [c] => parseFields c fields
  | _ => .error .badCmd

/-! ### The decoder -/

/-- What a byte string is, read as requests (R72, R77, R90, 40_interpreter.md R106). `rest` is what follows the line. -/
inductive Decoded where
  /-- A request of the grammar. -/
  | request (i : Instr) (rest : List Byte)
  /-- A line with no token: no request, no response (R72). -/
  | emptyLine (rest : List Byte)
  /-- A malformed request, rejected with its first cause in byte order (60_exceptions.md R148 (b)). -/
  | malformed (cause : Cause) (rest : List Byte)
  /-- No LF has arrived: no line yet (R77). -/
  | unterminated
  deriving DecidableEq, Repr

/-- The decoder of one line's tokens. -/
def decodeTokens (toks : List Token) (rest : List Byte) : Decoded :=
  match toks with
  | [] => .emptyLine rest
  | cmd :: fields =>
    match parseTokens cmd fields with
    | .ok i => .request i rest
    | .error c => .malformed c rest

/-- The decoder: total on any bytes. -/
def decode (bytes : List Byte) : Decoded :=
  match splitLine bytes with
  | none => .unterminated
  | some (line, rest) => decodeTokens (tokens line) rest

/-! ### Digits of a response and the encoder -/

/-- `digit(d)`, upper case (R81). -/
def digit (d : BitVec 4) : Byte :=
  if d ≤ 9#4 then 0x30#8 + d.zeroExtend 8 else 0x41#8 + (d.zeroExtend 8 - 10#8)

/-- `hex2(v)` (R81). -/
def hex2 (v : Byte) : List Byte :=
  [digit (v.extractLsb' 4 4), digit (v.extractLsb' 0 4)]

/-- `hex3(v)` (R81). -/
def hex3 (v : BitVec 12) : List Byte :=
  [digit (v.extractLsb' 8 4), digit (v.extractLsb' 4 4), digit (v.extractLsb' 0 4)]

/-- The chip token of a profile (R74). -/
def chipToken : Profile → Byte
  | .p256 => asciiZero
  | .p512 => asciiOne

/-- The command byte of an instruction (R73, opcode_table.json). -/
def Instr.commandByte : Instr → Byte
  | .version => cmdV
  | .readAll _ => cmdR
  | .blankCheck _ => cmdK
  | .readByte _ _ => cmdr
  | .program _ _ _ => cmdw
  | .simulate _ _ _ => cmds

/-- The fields after the command byte, each after one space (R72, R93). -/
def encodeFields : Instr → List Byte
  | .version => []
  | .readAll chip => [asciiSP, chipToken chip]
  | .blankCheck chip => [asciiSP, chipToken chip]
  | .readByte chip addr => [asciiSP, chipToken chip, asciiSP] ++ hex3 (addr.zeroExtend 12)
  | .program chip addr value =>
    [asciiSP, chipToken chip, asciiSP] ++ hex3 (addr.zeroExtend 12) ++ [asciiSP] ++ hex2 value
  | .simulate chip addr value =>
    [asciiSP, chipToken chip, asciiSP] ++ hex3 (addr.zeroExtend 12) ++ [asciiSP] ++ hex2 value

/-- One spelling of the request of an instruction, with its LF (R72, R93); the grammar admits others (leading zeros, lower
case, more delimiters). -/
def encode (i : Instr) : List Byte := i.commandByte :: (encodeFields i ++ [asciiLF])

/-! ### The words of the opcode table -/

/-- The operand tokens of a command byte, every operand zero (log 2): a space and the digit `0` for each field of R72. -/
def zeroFields (cmd : Byte) : List Byte :=
  if cmd = cmdR ∨ cmd = cmdK then [asciiSP, asciiZero]
  else if cmd = cmdr then [asciiSP, asciiZero, asciiSP, asciiZero]
  else if cmd = cmdw ∨ cmd = cmds then [asciiSP, asciiZero, asciiSP, asciiZero, asciiSP, asciiZero]
  else []

/-- The lowest `n` bytes of a word, the lowest first. -/
def wordBytes : Nat → Nat → List Byte
  | 0, _ => []
  | n + 1, w => BitVec.ofNat 8 w :: wordBytes n (w / 256)

/-- The request line of a table word, without its LF (DESIGN CHOICE, log 2): the table gives a row its command byte and no
operand bits, so a word of at most 8 bits stands for that command with operands of value zero; a longer word is the
bytes of a line, lowest first. -/
def tableLine (nbits w : Nat) : List Byte :=
  if nbits ≤ 8 then BitVec.ofNat 8 w :: zeroFields (BitVec.ofNat 8 w)
  else (wordBytes (nbits / 8) w).takeWhile (· ≠ asciiLF)

/-- The instruction the decoder reads from a table word. -/
def decodeTableWord (nbits w : Nat) : Option Instr :=
  match decode (tableLine nbits w ++ [asciiLF]) with
  | .request i _ => some i
  | _ => none

end Sys2Proof
end

