-- ==== Sys2Proof/Config.lean ====
section
/-! DEFINITION. What the spec leaves open and the model holds as constants with no body: the parameters of 00_scope.md
R12, and the draws of the environment (20_memory.md R50 to R52). Every parameter is built from free constants in such a
way that exactly the values R12 admits can occur. -/

namespace Sys2Proof.Config

/-- The greatest interval the 32-bit `tmr` is asked to hold (10_state.md R37). -/
def maxDelay : Nat := 4294967295

/-- DESIGN CHOICE (log 9): the free constant behind `nSettle`, one less than it. -/
opaque settleFree : Fin 4294967295
/-- DESIGN CHOICE (log 9): the free constant behind `nCool`, one less than it. -/
opaque coolFree : Fin 4294967295
/-- DESIGN CHOICE (log 9): the free constant behind `nRead`, one less than it. -/
opaque readFree : Fin 4294967295
/-- DESIGN CHOICE (log 9): the free constant behind `nPwrup`, one less than it. -/
opaque powerUpFree : Fin 4294967295
/-- DESIGN CHOICE (log 9): the free constant behind `nPulseMin`, one less than it. -/
opaque pulseMinFree : Fin 4294967295
/-- DESIGN CHOICE (log 9): how far `nPulseMax` lies above `nPulseMin + 1`. -/
opaque pulseSpanFree : Nat
/-- DESIGN CHOICE (log 9): where `nPulse` lies between its bounds. -/
opaque pulseFree : Nat

/-- `N_SETTLE`, at least 1 (00_scope.md R12). -/
def nSettle : Nat := settleFree.val + 1
/-- `N_COOL`, at least 1 (00_scope.md R12). -/
def nCool : Nat := coolFree.val + 1
/-- `N_READ`, at least 1 (00_scope.md R12). -/
def nRead : Nat := readFree.val + 1
/-- `N_PWRUP`, at least 1 (00_scope.md R12). -/
def nPwrup : Nat := powerUpFree.val + 1
/-- `N_PULSE_MIN`, at least 1 (00_scope.md R12). -/
def nPulseMin : Nat := pulseMinFree.val + 1
/-- `N_PULSE_MAX`, above `N_PULSE_MIN` (00_scope.md R12). -/
def nPulseMax : Nat := nPulseMin + 1 + pulseSpanFree
/-- `N_PULSE`, from `N_PULSE_MIN` to `N_PULSE_MAX` (00_scope.md R12), and no more than `tmr` can count (10_state.md
R37). -/
def nPulse : Nat := min (nPulseMin + pulseFree % (pulseSpanFree + 2)) maxDelay

/-- DESIGN CHOICE (log 10): the free constant behind the characters of the version code. -/
opaque versionFree : Nat → Fin 95

/-- One character of the version code: printable 7-bit ASCII, 0x20 to 0x7E, so neither CR nor LF (00_scope.md R12). -/
def versionChar (i : Nat) : Byte := BitVec.ofNat 8 (0x20 + (versionFree i).val)

/-- `VERSION_CODE`, six characters no claim may know (00_scope.md R13). -/
def versionCode : List Byte :=
  [versionChar 0, versionChar 1, versionChar 2, versionChar 3, versionChar 4, versionChar 5]

/-- DESIGN CHOICE (log 7): whether the fuse of the `k`-th draw blew, the draw `b` of 20_memory.md R51; also the state a
pulse cut by reset leaves its bit in (R52). -/
opaque fuseBlows : Nat → Bool

/-- DESIGN CHOICE (log 8): the byte of the `k`-th draw, for a sample of `dbus_in` that does not meet the conditions of
20_memory.md R50. -/
opaque strayByte : Nat → Byte

end Sys2Proof.Config
end

