-- ==== Sys2Proof/Machine/State.lean ====
section
/-! DEFINITION. The state of the machine as plain data: every register, output and queue that 10_state.md gives the block,
and the environment it faces (the host's side of the two byte streams and the target chip), with the values after reset.
Also the reasons a step can stop. -/

namespace Sys2Proof.Machine

/-- The protocol state `st` (10_state.md R27). The code 0b111 is never written and has no constructor here (log 15). -/
inductive ProtocolState where
  | ready
  | waitChip
  | waitAddress
  | waitValue
  /-- Reserved: no row of the rule table requires or returns it (R31). -/
  | waitTestNumber
  /-- Reserved: no row of the rule table requires or returns it (R31). -/
  | waitTestParams
  | executing
  deriving DecidableEq, Repr

/-- The target supply level (R23). The code 0b11 is never driven and has no constructor here (log 15). -/
inductive Supply where
  | off
  | nominal
  | program
  deriving DecidableEq, Repr

/-- A point of the engine's pseudocode: the line, or the test before a line, that runs next (42_programming_engine.md
R126). The phases `eph` of R128 are a coarser view of it (log 12). -/
inductive Point where
  /-- `E_IDLE`. -/
  | idle
  /-- `N <- CELLS(chip)` (41_commands.md R118, R120; log 13). -/
  | countCells
  /-- `PowerUp`, first line (R130). -/
  | selectChip
  /-- `PowerUp`, second line, with its `Wait(N_PWRUP)`. -/
  | powerOn
  /-- `en <- 1` after `PowerUp`. -/
  | pathOn
  /-- `a <- 0` of `K` (R120). -/
  | scanZero
  /-- The head of the cell loop of `R`, entered first (R118). -/
  | scanFirst
  /-- The head of the cell loop of `R` after a byte was emitted. -/
  | scanNext
  /-- `while a < N` of `K` (R120). -/
  | blankLoop
  /-- `abus <- a` of `PromRead(addr)` in `r`, `w` and `s` (R132). -/
  | readAddr
  /-- `b <- dbus_in` of `PromRead` (R132). -/
  | readSample
  /-- `Emit(hex2(b))` of `R` (R118). -/
  | scanEmit
  /-- `if b ≠ 0x00` of `K` (R120). -/
  | blankTest
  /-- `en <- 0` of `w` and `s` (R123, R124). -/
  | pathOff
  /-- `target <- value; real <- …` (R123, R124). -/
  | setTarget
  /-- `achieved <- existing` (R139). -/
  | copyExisting
  /-- `if existing = target` (R139, step 1). -/
  | burnTest
  /-- `supply <- Program` with its `Wait(N_SETTLE)` (R135). -/
  | burnRaise
  /-- `en <- 1` with its `Wait(N_PULSE)` (R135). -/
  | burnEnable
  /-- `en <- 0` (R135). -/
  | burnDisable
  /-- `supply <- Nominal` (R135). -/
  | burnDrop
  /-- `prog_sel <- 0x00` (R135). -/
  | burnRelease
  /-- `en <- 1` of `VerifyBit` with its `Wait(N_READ)` (R134). -/
  | verifyEnable
  /-- `ok <- dbus_in[i]; en <- 0` of `VerifyBit`, and the `Wait(N_COOL)` after it (R134, R136). -/
  | verifySample
  /-- `if ok = 0: break` (R139). -/
  | verifyTest
  /-- The head of the bit loop after a bit was recorded (R139). -/
  | bitNext
  /-- `PowerDown`, first line, where no test precedes it (R131, R122). -/
  | powerDown
  /-- `PowerDown`, second line (R131). -/
  | powerOff
  /-- The last `Emit` of the command (41_commands.md R115 (d)). -/
  | respond
  deriving DecidableEq, Repr

/-- The Command register (10_state.md R25). -/
structure Command where
  /-- `cmd`: the raw byte of the command token. -/
  cmd : Byte
  /-- `chip`: the profile. -/
  chip : Profile
  /-- `addr`: the cell address. -/
  addr : CellAddr
  /-- `value`: the byte value. -/
  value : Byte
  deriving DecidableEq, Repr

/-- The lexer's registers (R32). -/
structure Lexer where
  /-- `in_tok`. -/
  inTok : Bool
  /-- `tok_len`, saturating at 3. -/
  tokLen : BitVec 2
  /-- `tok0`. -/
  tok0 : Byte
  /-- `tok_nonhex`. -/
  tokNonhex : Bool
  /-- `acc`. -/
  acc : BitVec 10
  /-- `ovf`. -/
  ovf : Bool
  deriving DecidableEq, Repr

/-- The Programming Engine's registers (R37), with two locals of its pseudocode (log 11). -/
structure Engine where
  /-- The program point, of which `eph` is a view. -/
  point : Point
  /-- `existing`. -/
  existing : Byte
  /-- `target`. -/
  target : Byte
  /-- `achieved`. -/
  achieved : Byte
  /-- `bit`, 0 to 8. -/
  bit : BitVec 4
  /-- `real`. -/
  real : Bool
  /-- `scan_a`. -/
  scanA : BitVec 10
  /-- `tmr`. -/
  tmr : BitVec 32
  /-- `b`, the byte the last `PromRead` returned to its caller (R118, R120, R122). -/
  b : Byte
  /-- `ok`, the bit the last `VerifyBit` returned (R139). -/
  ok : Bool
  deriving DecidableEq, Repr

/-- The registered outputs of the Bus Driver (R38). -/
structure Bus where
  /-- `chip_sel`. -/
  chipSel : Profile
  /-- `abus`. -/
  abus : CellAddr
  /-- `prog_sel`. -/
  progSel : Byte
  /-- `supply`. -/
  supply : Supply
  /-- `en`. -/
  en : Bool
  deriving DecidableEq, Repr

/-- The levels the environment puts on the block's inputs in one step (R23). -/
structure PortIn where
  /-- `rst`. -/
  rst : Bool
  /-- `rx_valid`, as far as the host has a byte to offer. -/
  rxValid : Bool
  /-- `tx_ready`. -/
  txReady : Bool
  deriving DecidableEq, Repr

/-- The host's side of the ports (R22, R40). -/
structure HostSide where
  /-- The input levels of the coming steps, this step's first (log 3). -/
  ports : List PortIn
  /-- The request bytes not accepted yet; the first one is `rx_data`. -/
  rx : List Byte
  /-- The response bytes taken so far, in order. -/
  taken : List Byte
  deriving DecidableEq, Repr

/-- What stands in the chip socket (20_memory.md R61, 93_implementation_defined.md I9). -/
inductive Socket where
  /-- A chip of whatever profile `chip_sel` selects: the premise of every rule but R61 (log 5). -/
  | matching
  /-- A chip of the given profile, whatever `chip_sel` selects. -/
  | fixed (p : Profile)
  /-- No chip. -/
  | empty
  deriving DecidableEq, Repr

/-- How far the programming sequence of 42_programming_engine.md R135 has come at the chip's pins (log 16). -/
inductive Stage where
  /-- No programming sequence is on. -/
  | quiet
  /-- A data line is driven. -/
  | selected
  /-- The supply stands at the programming level, enable not yet asserted. -/
  | settling
  /-- The pulse: enable asserted at the programming level. -/
  | pulsing
  /-- The pulse is over, the supply not yet dropped. -/
  | pulsed
  /-- The supply is back at nominal, the data line still driven. -/
  | dropped
  deriving DecidableEq, Repr

/-- The cell array: (cell number, byte) pairs in canonical form, cell numbers strictly rising, no byte equal to what an
unlisted cell reads as. -/
abbrev Memory := List Host.Cell

/-- The target chip as the environment (20_memory.md R48 to R52, R61). -/
structure Chip where
  /-- What stands in the socket. -/
  socket : Socket
  /-- `cells`. -/
  cells : Memory
  /-- How many cycles the outputs, as they stand now, will have been seen unchanged at the end of this step (log 18). -/
  held : Nat
  /-- The programming sequence seen so far. -/
  stage : Stage
  /-- How many free values have been drawn (log 7, log 8). -/
  draws : Nat
  deriving DecidableEq, Repr

/-- The state: the block's registers, outputs and queue, and the environment it faces. -/
structure State where
  /-- The protocol state, the block's program counter (10_state.md R27). -/
  st : ProtocolState
  /-- The Command register (R25). -/
  command : Command
  /-- The lexer (R32). -/
  lex : Lexer
  /-- `discard` (R33). -/
  discard : Bool
  /-- `busy` (R35). -/
  busy : Bool
  /-- `err_cause` (R36). -/
  errCause : Cause
  /-- The engine (R37). -/
  eng : Engine
  /-- The outputs (R38). -/
  bus : Bus
  /-- `txq`, unbounded (R39, log 21). -/
  txq : List Byte
  /-- The environment: the host. -/
  host : HostSide
  /-- The environment: the target chip. -/
  chip : Chip
  deriving DecidableEq, Repr

/-- Why the machine stops. Every one is safe: the model makes no claim past it, and the spec gives no next state there. -/
inductive Fault where
  /-- Raised by the Bus Driver's read and by the chip: an access to a cell number at or above `CELLS` of the selected
  profile, which does not exist (20_memory.md R60; log 19). Safe; no run of the block comes there. -/
  | noSuchCell (a : CellAddr)
  /-- Raised by the chip: a programming sequence that breaks the order or the delays of R135, or one on an empty socket
  or a chip of another profile, whose effect on the chip is unspecified, "stuck" (20_memory.md R52, R61,
  93_implementation_defined.md I5, I9; log 17). Safe. -/
  | programmingUnspecified
  /-- Raised by the interpreter at an event: `st` is `WaitTestNumber` or `WaitTestParams`, which is no state of the
  block, "stuck" (10_state.md R31, 93_implementation_defined.md I11; log 15). Safe; no run comes there. -/
  | reservedProtocolState
  /-- Raised by the step: the engine runs and the Command register holds none of the six commands, which is no state of
  the block (10_state.md R25, R29; log 20). Safe; no run comes there. -/
  | noLiveCommand
  /-- Raised by a meaning: the engine stands at a line that is not of the command's pseudocode, which is no state of the
  block (42_programming_engine.md R126; log 20). Safe; no run comes there. -/
  | outsideCommand
  deriving DecidableEq, Repr

/-- Why an instruction has no meaning. -/
inductive Refusal where
  /-- Raised by an arm of `exec` for an instruction not modelled. Safe. No arm raises it in this model. -/
  | notModelled (mnemonic : String)
  deriving DecidableEq, Repr

/-- The Command register empty (10_state.md R25, R30). -/
def emptyCommand : Command :=
  { cmd := 0x00#8, chip := .p256, addr := 0#9, value := 0x00#8 }

/-- The lexer's registers cleared (R32, 40_interpreter.md R100). -/
def clearedLexer : Lexer :=
  { inTok := false, tokLen := 0#2, tok0 := 0x00#8, tokNonhex := false, acc := 0#10, ovf := false }

/-- The engine after reset (R37; `b` and `ok`: DESIGN CHOICE, log 11). -/
def resetEngine : Engine :=
  { point := .idle, existing := 0x00#8, target := 0x00#8, achieved := 0x00#8, bit := 0#4, real := false,
    scanA := 0#10, tmr := 0#32, b := 0x00#8, ok := false }

/-- The outputs after reset (R38, 70_reset_and_hazards.md R165). -/
def resetBus : Bus :=
  { chipSel := .p256, abus := 0#9, progSel := 0x00#8, supply := .off, en := false }

/-- The machine right after reset: the block as 10_state.md R44 says, and an environment that the log names (host: log 3,
log 4; chip: log 5, log 6, log 16, log 18). -/
def State.reset : State :=
  { st := .ready, command := emptyCommand, lex := clearedLexer, discard := false, busy := false, errCause := .none,
    eng := resetEngine, bus := resetBus, txq := [],
    host := { ports := [], rx := [], taken := [] },
    chip := { socket := .matching, cells := [], held := 1, stage := .quiet, draws := 0 } }

end Sys2Proof.Machine
end

