-- ==== Sys2Proof/Machine/Memory.lean ====
section
/-! DEFINITION. The cell array as data: what an unlisted cell reads as, reading and writing one cell, and the canonical
form that every write keeps. -/

namespace Sys2Proof.Machine

/-- What a cell that is not listed reads as: unprogrammed, all bits 0 (20_memory.md R49). That the cells of a run start so
is the model's choice (R48 leaves them arbitrary; log 6). -/
def blankByte : Byte := 0x00#8

/-- The byte of cell `a`. -/
def readCell : Memory → Nat → Byte
  | [], _ => blankByte
  | (k, v) :: rest, a => if a = k then v else readCell rest a

/-- An entry at the front of a list, or none where the byte is what an unlisted cell reads as. -/
def consCell (a : Nat) (v : Byte) (m : Memory) : Memory :=
  if v = blankByte then m else (a, v) :: m

/-- The memory with cell `a` holding `v`, in canonical form. -/
def writeCell : Memory → Nat → Byte → Memory
  | [], a, v => consCell a v []
  | (k, w) :: rest, a, v =>
    if a < k then consCell a v ((k, w) :: rest)
    else if a = k then consCell a v rest
    else (k, w) :: writeCell rest a v

/-- The canonical form of a memory whose cell numbers are at least `lo`: strictly rising, below the 512 cells a 9-bit
address reaches, no entry equal to `blankByte`. -/
def wfFrom (lo : Nat) : Memory → Bool
  | [] => true
  | (k, v) :: rest => decide (lo ≤ k) && decide (k < 512) && decide (v ≠ blankByte) && wfFrom (k + 1) rest

/-- The canonical form. -/
def Memory.wf (m : Memory) : Bool := wfFrom 0 m

end Sys2Proof.Machine
end

