-- ==== Sys2Proof/Machine/Chip.lean ====
section
/-! DEFINITION. The target chip as the environment model of 20_memory.md R61: the read rule R50, the programming rule R51
with the interrupted sequence R52. The chip sees the block's registered outputs only. -/

namespace Sys2Proof.Machine

/-- `onehot8(i)` (00_scope.md R14); 0x00 for a position above 7. -/
def onehot8 (i : Nat) : Byte := BitVec.ofNat 8 (2 ^ i)

/-- Exactly one data line is driven (70_reset_and_hazards.md R172). -/
def isOnehot (v : Byte) : Bool :=
  v = onehot8 0 || v = onehot8 1 || v = onehot8 2 || v = onehot8 3 ||
  v = onehot8 4 || v = onehot8 5 || v = onehot8 6 || v = onehot8 7

/-- The chip in the socket is one of the selected profile (20_memory.md R50, R61). -/
def Socket.matches : Socket → Profile → Bool
  | .matching, _ => true
  | .fixed p, q => p = q
  | .empty, _ => false

/-- The conditions of a read cycle (R50): supply `Nominal`, `en` = 1, `prog_sel` = 0, and the outputs held unchanged for at
least `N_READ` cycles, on a chip of the selected profile. -/
def Chip.readConditions (c : Chip) (b : Bus) : Bool :=
  c.socket.matches b.chipSel && b.supply = .nominal && b.en && b.progSel = 0x00#8 && decide (Config.nRead ≤ c.held)

/-- What the chip puts on `dbus_in`, and the chip afterwards: the addressed cell where the read conditions hold, else an
arbitrary byte (R50). A read changes no cell (R58). -/
def Chip.answer (c : Chip) (b : Bus) : Except Fault (Byte × Chip) :=
  if c.readConditions b then
    if addrInRange b.chipSel b.abus then .ok (readCell c.cells b.abus.toNat, c)
    else .error (.noSuchCell b.abus)
  else .ok (Config.strayByte c.draws, { c with draws := c.draws + 1 })

/-- The programming rule's effect (R51): the driven bit of the addressed cell is set if the fuse of this draw blew; no
other bit of any cell changes. -/
def Chip.burn (c : Chip) (b : Bus) : Chip :=
  let old := readCell c.cells b.abus.toNat
  let new := if Config.fuseBlows c.draws then old ||| b.progSel else old
  { c with cells := writeCell c.cells b.abus.toNat new, draws := c.draws + 1 }

/-- The chip when the outputs have not changed in a step. -/
def Chip.unchanged (c : Chip) : Chip := { c with held := c.held + 1 }

/-- The chip at a change of the outputs, with the stage of the programming sequence it is in from then on. -/
def Chip.toStage (c : Chip) (stage : Stage) : Chip := { c with held := 1, stage := stage }

/-- The start of a programming sequence (R135): a data line is driven, with supply `Nominal` and `en` = 0. On an empty
socket, a chip of another profile or a cell that does not exist the effect is unspecified (R61, R60). -/
def Chip.beginSequence (c : Chip) (new : Bus) : Except Fault Chip :=
  if !addrInRange new.chipSel new.abus then .error (.noSuchCell new.abus)
  else if c.socket.matches new.chipSel then .ok (c.toStage .selected)
  else .error .programmingUnspecified

/-- The change that starts a programming sequence: one data line is driven and nothing else changes, with supply
`Nominal`, `en` = 0 and no line driven before (R135). -/
def drivesLine (old new : Bus) : Bool :=
  isOnehot new.progSel && decide (new = { old with progSel := new.progSel }) && decide (old.progSel = 0x00#8) &&
    decide (old.supply = .nominal) && !old.en

/-- The change that each stage of a programming sequence allows, the outputs of the stage having stood for `held` cycles:
the lines of R135 in their order, each delay exact. -/
def Stage.allows (stage : Stage) (held : Nat) (old new : Bus) : Bool :=
  match stage with
  | .quiet => drivesLine old new
  | .selected => decide (new = { old with supply := .program })
  | .settling => decide (new = { old with en := true }) && decide (held = Config.nSettle)
  | .pulsing => decide (new = { old with en := false }) && decide (held = Config.nPulse)
  | .pulsed => decide (new = { old with supply := .nominal })
  | .dropped => decide (new = { old with progSel := 0x00#8 })

/-- What the allowed change does to the chip (R51): the next stage; at the end of the sequence the burn. -/
def Chip.advance (c : Chip) (old new : Bus) : Except Fault Chip :=
  match c.stage with
  | .quiet => c.beginSequence new
  | .selected => .ok (c.toStage .settling)
  | .settling => .ok (c.toStage .pulsing)
  | .pulsing => .ok (c.toStage .pulsed)
  | .pulsed => .ok (c.toStage .dropped)
  | .dropped => .ok ((c.burn old).toStage .quiet)

/-- Outside a programming sequence: no line driven and the supply not at the programming level. -/
def Bus.outsideSequence (b : Bus) : Bool := b.progSel = 0x00#8 && b.supply ≠ .program

/-- The chip at a change of the outputs from `old` to `new` with no reset: the stages of R135 in their order; every other
change while a sequence is on, and every other way to drive `prog_sel` or the programming level, breaks R135 (R52,
93_implementation_defined.md I5). -/
def Chip.change (c : Chip) (old new : Bus) : Except Fault Chip :=
  if c.stage = .quiet && new.outsideSequence then .ok (c.toStage .quiet)
  else if c.stage.allows c.held old new then c.advance old new
  else .error .programmingUnspecified

/-- What the chip does at the end of a step with no reset in which the outputs went from `old` to `new`. -/
def Chip.observe (c : Chip) (old new : Bus) : Except Fault Chip :=
  if new = old then .ok c.unchanged else c.change old new

/-- What the chip does at the end of a step with reset: a programming sequence cut short leaves its bit in either state
and changes no other (R52, 70_reset_and_hazards.md R166). -/
def Chip.cutByReset (c : Chip) (old : Bus) : Chip :=
  match c.stage with
  | .quiet => c.toStage .quiet
  | _ => (c.burn old).toStage .quiet

end Sys2Proof.Machine
end

