-- ==== Sys2Proof/Machine/Flags.lean ====
section
/-! DEFINITION. The status bits and the output ports. The block has no arithmetic flags (10_state.md R34); its status bits
are `discard`, `busy` and `err_cause`. Here stand the codes of the enumerated registers, the computed ports of R23, and
how `busy` falls. -/

namespace Sys2Proof.Machine

/-- The 3-bit code of `st` (10_state.md R27). -/
def ProtocolState.code : ProtocolState → BitVec 3
  | .ready => 0b000#3
  | .waitChip => 0b001#3
  | .waitAddress => 0b010#3
  | .waitValue => 0b011#3
  | .waitTestNumber => 0b100#3
  | .waitTestParams => 0b101#3
  | .executing => 0b110#3

/-- `st` is one of the two reserved encodings (R31). -/
def ProtocolState.reserved : ProtocolState → Bool
  | .waitTestNumber => true
  | .waitTestParams => true
  | _ => false

/-- The 2-bit code of `supply` (R23). -/
def Supply.code : Supply → BitVec 2
  | .off => 0b00#2
  | .nominal => 0b01#2
  | .program => 0b10#2

/-- The 3-bit code of `err_cause` (60_exceptions.md R144). -/
def causeCode : Cause → BitVec 3
  | .none => 0b000#3
  | .noRule => 0b001#3
  | .badCmd => 0b010#3
  | .badChip => 0b011#3
  | .badHex => 0b100#3
  | .range => 0b101#3

/-- The 1-bit code of a profile in `chip` and `chip_sel` (10_state.md R23, R25). -/
def profileCode : Profile → BitVec 1
  | .p256 => 0#1
  | .p512 => 1#1

/-- `eph` while the engine waits at a point: the phase of the line before the wait (42_programming_engine.md R128). -/
def Point.waitingPhase : Point → BitVec 4
  | .pathOn => 1#4
  | .burnEnable => 5#4
  | .burnDisable => 6#4
  | .verifySample => 8#4
  | .verifyTest => 9#4
  | _ => 2#4

/-- `eph` at a point with no wait left (R128, informative but for `E_IDLE`; log 12). -/
def Point.phase : Point → BitVec 4
  | .idle => 0#4
  | .countCells => 1#4
  | .selectChip => 1#4
  | .powerOn => 1#4
  | .pathOn => 1#4
  | .scanZero => 2#4
  | .scanFirst => 2#4
  | .scanNext => 2#4
  | .blankLoop => 2#4
  | .readAddr => 2#4
  | .readSample => 2#4
  | .scanEmit => 3#4
  | .blankTest => 2#4
  | .pathOff => 2#4
  | .setTarget => 2#4
  | .copyExisting => 2#4
  | .burnTest => 4#4
  | .burnRaise => 5#4
  | .burnEnable => 6#4
  | .burnDisable => 7#4
  | .burnDrop => 7#4
  | .burnRelease => 7#4
  | .verifyEnable => 8#4
  | .verifySample => 8#4
  | .verifyTest => 9#4
  | .bitNext => 4#4
  | .powerDown => 10#4
  | .powerOff => 10#4
  | .respond => 11#4

/-- `eph` (10_state.md R37, 42_programming_engine.md R128). -/
def Engine.eph (e : Engine) : BitVec 4 :=
  if e.point ≠ .idle ∧ e.tmr ≠ 0#32 then e.point.waitingPhase else e.point.phase

/-- `eph = E_IDLE`. -/
def State.engineIdle (s : State) : Bool := s.eng.point = .idle

/-- The levels an environment that lists none puts on the inputs (DESIGN CHOICE, log 3): no reset, a byte offered while the
host has one, response bytes taken at once. -/
def defaultPorts : PortIn := { rst := false, rxValid := true, txReady := true }

/-- The input levels of this step. -/
def State.portsNow (s : State) : PortIn :=
  match s.host.ports with
  | [] => defaultPorts
  | p :: _ => p

/-- `rx_ready` (R41). -/
def State.rxReady (s : State) : Bool :=
  !s.busy && s.engineIdle && s.txq.isEmpty && !s.portsNow.rst

/-- `rx_data`, where `rx_valid` = 1 (R23). -/
def State.rxOffered (s : State) : Option Byte :=
  if s.portsNow.rxValid then s.host.rx.head? else none

/-- The byte accepted in this step: `rx_valid` = 1 and `rx_ready` = 1 (R41, `RecvByte`). -/
def State.accepted (s : State) : Option Byte :=
  if s.rxReady then s.rxOffered else none

/-- `tx_valid` (R39). -/
def State.txValid (s : State) : Bool := !s.txq.isEmpty

/-- `tx_data`, where `tx_valid` = 1 (R39). -/
def State.txData (s : State) : Option Byte := s.txq.head?

/-- `tx_valid` = 1 and `tx_ready` = 1: the host side takes a byte in this step (R39). -/
def State.txTaken (s : State) : Bool := s.txValid && s.portsNow.txReady

/-- `busy` falls in the step in which `txq` becomes empty while `eph = E_IDLE` (R35, 40_interpreter.md R95 (4)); applied to
a state whose first queued byte has just been removed. -/
def State.settleBusy (s : State) : State :=
  if s.txq.isEmpty && s.engineIdle then { s with busy := false } else s

end Sys2Proof.Machine
end

