-- ==== Sys2Proof/Machine/Ops.lean ====
section
/-! DEFINITION. The named operations over the state: emitting, the error transition (the block's one exception) and the way
out of it, how a command starts and ends, reset, the byte streams, and the engine's lines (power, read, verify, pulse,
timer). -/

namespace Sys2Proof.Machine

/-- The outcome of a step of this machine. -/
abbrev Result := Host.Outcome State Fault Refusal

/-- One part of a step after another. -/
def andThen (r : Result) (f : State → Result) : Result :=
  match r with
  | .next s => f s
  | .fault e => .fault e
  | .refused e => .refused e

/-! ### Responses -/

/-- `CR LF`. -/
def crlf : List Byte := [asciiCR, asciiLF]

/-- What follows the payload line of a success: `CR LF`, the status line `R`, `CR LF` (30_encoding.md R78). -/
def okTrailer : List Byte := crlf ++ [cmdR] ++ crlf

/-- The error response: an empty payload line and the status line `E` (R79). -/
def errorResponse : List Byte := crlf ++ [asciiE] ++ crlf

/-- `Emit(s)`: append the bytes to `txq` in order (10_state.md R42). -/
def State.emit (bytes : List Byte) (s : State) : State :=
  { s with txq := s.txq ++ bytes }

/-! ### Taking the exception, and the way out of it -/

/-- What ended an event (40_interpreter.md R96). -/
inductive Terminator where
  | delim
  | lf
  deriving DecidableEq, Repr

/-- `raise MalformedRequest(cause)` with its terminator (60_exceptions.md R149): the error transition, in one step. Nothing
is saved; the engine, the outputs and the chip are not involved. -/
def State.raise (cause : Cause) (term : Terminator) (s : State) : State :=
  State.emit errorResponse
    { s with errCause := cause, busy := true, st := .ready, command := emptyCommand, lex := clearedLexer,
             discard := decide (term = .delim) }

/-- The only way out of an error (R151, 40_interpreter.md R113): while `discard` = 1 a byte is consumed with no effect, but
an LF clears `discard`. -/
def State.discardByte (c : Byte) (s : State) : State :=
  if c = asciiLF then { s with discard := false } else s

/-! ### Starting and ending a command -/

/-- An execute handler starts (40_interpreter.md R111): the engine leaves `E_IDLE` for the command's first line. -/
def State.start (first : Point) (s : State) : State :=
  { s with st := .executing, busy := true, errCause := .none, eng := { s.eng with point := first } }

/-- An execute handler ends with its last `Emit` (41_commands.md R115 (d), 40_interpreter.md R112, 10_state.md R30). -/
def State.finish (bytes : List Byte) (s : State) : State :=
  State.emit bytes
    { s with st := .ready, command := emptyCommand, eng := { s.eng with point := .idle } }

/-! ### Reset and the byte streams -/

/-- The request byte accepted in this step leaves the stream (10_state.md R41). -/
def State.acceptByte (s : State) : State :=
  { s with host := { s.host with rx := s.host.rx.tail } }

/-- The environment's levels of this step are over. -/
def State.nextPorts (s : State) : State :=
  { s with host := { s.host with ports := s.host.ports.tail } }

/-- The first byte of `txq` goes to the host (R39). -/
def State.takeTx (s : State) : State :=
  { s with txq := s.txq.tail, host := { s.host with taken := s.host.taken ++ s.txq.head?.toList } }

/-- A step with `rst` = 1 (70_reset_and_hazards.md R165, R166): every register, output and queue at its reset value,
whatever else holds. The request stream, the bytes already taken and the chip's cells stay, but for the bit of a
programming sequence cut short. -/
def State.resetStep (s : State) : State :=
  { State.reset with host := { s.host with ports := s.host.ports.tail }, chip := s.chip.cutByReset s.bus }

/-! ### The engine's lines -/

/-- The engine goes on at a point. -/
def State.goto (p : Point) (s : State) : State := { s with eng := { s.eng with point := p } }

/-- `Wait(n)` after the line of this step: `tmr` is loaded with `n - 1` (42_programming_engine.md R127). -/
def State.wait (n : Nat) (s : State) : State := { s with eng := { s.eng with tmr := BitVec.ofNat 32 (n - 1) } }

/-- One step of a `Wait` (R127). -/
def State.tick (s : State) : State := { s with eng := { s.eng with tmr := s.eng.tmr - 1#32 } }

/-- `en <- v`. -/
def State.setEn (v : Bool) (s : State) : State := { s with bus := { s.bus with en := v } }

/-- `supply <- v`. -/
def State.setSupply (v : Supply) (s : State) : State := { s with bus := { s.bus with supply := v } }

/-- `prog_sel <- v`. -/
def State.setProgSel (v : Byte) (s : State) : State := { s with bus := { s.bus with progSel := v } }

/-- `abus <- a`. -/
def State.setAbus (a : CellAddr) (s : State) : State := { s with bus := { s.bus with abus := a } }

/-- `PowerUp(p)`, first line: `chip_sel <- p; abus <- 0; en <- 0; prog_sel <- 0x00` (R130). -/
def State.selectChip (p : Profile) (s : State) : State :=
  State.goto .powerOn { s with bus := { s.bus with chipSel := p, abus := 0#9, en := false, progSel := 0x00#8 } }

/-- `PowerUp(p)`, second line: `supply <- Nominal; Wait(N_PWRUP)` (R130). -/
def State.powerOn (s : State) : State :=
  ((s.setSupply .nominal).wait Config.nPwrup).goto .pathOn

/-- `en <- 1` after `PowerUp`, the output path selected (41_commands.md R118). -/
def State.openPath (next : Point) (s : State) : State := (s.setEn true).goto next

/-- `PowerDown()`, first line: `en <- 0; prog_sel <- 0x00` (R131). -/
def State.powerDown (s : State) : State := ((s.setEn false).setProgSel 0x00#8).goto .powerOff

/-- `PowerDown()`, second line: `supply <- Off` (R131). -/
def State.powerOff (s : State) : State := (s.setSupply .off).goto .respond

/-- `PromRead(a)`, first line: `abus <- a; Wait(N_READ)` (R132). -/
def State.readAt (a : CellAddr) (s : State) : State :=
  ((s.setAbus a).wait Config.nRead).goto .readSample

/-- `dbus_in` sampled in this step (R132, R134): the byte goes on to what the line does with it. -/
def State.sampleBus (s : State) (line : Byte → State → State) : Result :=
  match s.chip.answer s.bus with
  | .ok (b, chip) => .next (line b { s with chip := chip })
  | .error e => .fault e

/-- The byte sampled goes to the pseudocode's `b` (41_commands.md R118, R120, R122). -/
def State.setB (b : Byte) (s : State) : State := { s with eng := { s.eng with b := b } }

/-- The byte sampled goes to `existing` (42_programming_engine.md R133). -/
def State.setExisting (b : Byte) (s : State) : State := { s with eng := { s.eng with existing := b } }

/-- `scan_a <- a`. -/
def State.setScan (a : BitVec 10) (s : State) : State := { s with eng := { s.eng with scanA := a } }

/-- `bit <- i`. -/
def State.setBit (i : Nat) (s : State) : State := { s with eng := { s.eng with bit := BitVec.ofNat 4 i } }

/-- How a command runs (41_commands.md R115 (a), (b); 42_programming_engine.md R126, R127): from `E_IDLE` it starts at its
first line; while a `Wait` lasts the timer counts; else the line at the engine's point runs. One step of a command is one clock
cycle of it (log 1). -/
def State.runCommand (first : Point) (line : Point → State → Result) (s : State) : Result :=
  match s.eng.point with
  | .idle => .next (s.start first)
  | p => if s.eng.tmr ≠ 0#32 then .next s.tick else line p s

/-! ### What a step does around the block's own part -/

/-- The output queue moves, `txq` as it stood at the start of the step deciding (40_interpreter.md R95 (4), 10_state.md
R39; log 22). -/
def State.moveQueue (before : State) (s : State) : State :=
  if before.txTaken then (s.takeTx).settleBusy else s

/-- The end of a step with no reset: the output queue moves, the chip sees the outputs, the environment's levels of this
step are over. -/
def State.endStep (before : State) (s : State) : Result :=
  match s.chip.observe before.bus s.bus with
  | .ok chip => .next (State.nextPorts { State.moveQueue before s with chip := chip })
  | .error e => .fault e

end Sys2Proof.Machine
end

