-- ==== Sys2Proof/Machine/Burn.lean ====
section
/-! DEFINITION. The commands that work on one byte of the chip: `w` (41_commands.md R123) and `s` (R124), over the bit-burn
algorithm `BurnByte` with its pulse and verify sequences (42_programming_engine.md R133 to R139). -/

namespace Sys2Proof.Machine

/-- Where the bit loop of `BurnByte` stands after its tests (R139). -/
inductive BitStop where
  /-- The loop ran through: `bit` = 8. -/
  | done
  /-- The bit is set in the chip and unset in the target: impossible, the loop stops there. -/
  | impossible (i : Nat)
  /-- The bit is unset in the chip and set in the target: burnable. -/
  | burnable (i : Nat)
  deriving DecidableEq, Repr

/-- The tests of the bit loop over the `n` positions from `i` on, up to the first bit that differs (R139). -/
def nextBit (existing target : Byte) : Nat → Nat → BitStop
  | 0, _ => .done
  | n + 1, i =>
    if existing.getLsbD i = target.getLsbD i then nextBit existing target n (i + 1)
    else if existing.getLsbD i then .impossible i
    else .burnable i

/-- `achieved[bit] <- 1` (R139). -/
def State.recordBit (i : Nat) (s : State) : State :=
  State.goto .bitNext { s with eng := { s.eng with achieved := s.eng.achieved ||| onehot8 i } }

/-- `BurnPulse(a, i)`, first line: `prog_sel <- onehot8(i)` (R135). -/
def State.selectLine (i : Nat) (s : State) : State := (s.setProgSel (onehot8 i)).goto .burnRaise

/-- The bit loop from position `i` on, with the line that follows its tests (R139): the first line of a pulse, in simulate
mode the recording of the bit, or the first line of `PowerDown` after the loop. `bit` is the position found, or 8
(when it is written: log 14). -/
def bitLoop (i : Nat) (s : State) : State :=
  match nextBit s.eng.existing s.eng.target (8 - i) i with
  | .done => (s.setBit 8).powerDown
  | .impossible k => (s.setBit k).powerDown
  | .burnable k => if s.eng.real then (s.setBit k).selectLine k else (s.setBit k).recordBit k

/-- `if existing = target: return achieved`, else the bit loop from bit 0 (R139). -/
def burnTest (s : State) : State :=
  if s.eng.existing = s.eng.target then s.powerDown else bitLoop 0 s

/-- `if ok = 0: break`, else `achieved[bit] <- 1` (R139). -/
def verifyTest (s : State) : State :=
  if s.eng.ok then s.recordBit s.eng.bit.toNat else s.powerDown

/-- `VerifyBit`, second line, and the cooldown after it: `ok <- dbus_in[i]; en <- 0`, `Wait(N_COOL)` (R134, R136). -/
def State.takeVerify (b : Byte) (s : State) : State :=
  State.goto .verifyTest (State.wait Config.nCool
    (State.setEn false { s with eng := { s.eng with ok := b.getLsbD s.eng.bit.toNat } }))

/-- `target <- value; real <- …` (41_commands.md R123, R124). -/
def State.setTarget (value : Byte) (real : Bool) (s : State) : State :=
  State.goto .copyExisting { s with eng := { s.eng with target := value, real := real } }

/-- `achieved <- existing` (R139). -/
def State.copyExisting (s : State) : State :=
  State.goto .burnTest { s with eng := { s.eng with achieved := s.eng.existing } }

/-- The lines of `w` (`real`) and of `s` (R123, R124, R139). -/
def burnLine (real : Bool) (chip : Profile) (addr : CellAddr) (value : Byte) (p : Point) (s : State) : Result :=
  match p with
  | .selectChip => .next (s.selectChip chip)
  | .powerOn => .next s.powerOn
  | .pathOn => .next (s.openPath .readAddr)
  | .readAddr => .next (s.readAt addr)
  | .readSample => s.sampleBus (fun b t => (t.setExisting b).goto .pathOff)
  | .pathOff => .next ((s.setEn false).goto .setTarget)
  | .setTarget => .next (s.setTarget value real)
  | .copyExisting => .next s.copyExisting
  | .burnTest => .next (burnTest s)
  | .burnRaise => .next (((s.setSupply .program).wait Config.nSettle).goto .burnEnable)
  | .burnEnable => .next (((s.setEn true).wait Config.nPulse).goto .burnDisable)
  | .burnDisable => .next ((s.setEn false).goto .burnDrop)
  | .burnDrop => .next ((s.setSupply .nominal).goto .burnRelease)
  | .burnRelease => .next ((s.setProgSel 0x00#8).goto .verifyEnable)
  | .verifyEnable => .next (((s.setEn true).wait Config.nRead).goto .verifySample)
  | .verifySample => s.sampleBus State.takeVerify
  | .verifyTest => .next (verifyTest s)
  | .bitNext => .next (bitLoop (s.eng.bit.toNat + 1) s)
  | .powerOff => .next s.powerOff
  | .respond => .next (s.finish (hex2 s.eng.achieved ++ okTrailer))
  | _ => .fault .outsideCommand

/-- `w <chip> <addr> <byte>`, program one byte: one clock step of the command, in real mode (R123, R138, R115). -/
def execProgram (chip : Profile) (addr : CellAddr) (value : Byte) (s : State) : Result :=
  s.runCommand .selectChip (burnLine true chip addr value)

/-- `s <chip> <addr> <byte>`, simulate programming one byte: one clock step of the command, in simulate mode (R124, R138,
R115). -/
def execSimulate (chip : Profile) (addr : CellAddr) (value : Byte) (s : State) : Result :=
  s.runCommand .selectChip (burnLine false chip addr value)

end Sys2Proof.Machine
end

