-- ==== Sys2Proof/Machine/Read.lean ====
section
/-! DEFINITION. The commands that only read: `r` (41_commands.md R122), `R` (R118, R119) and `K` (R120, R121). -/

namespace Sys2Proof.Machine

/-- The lines of `r <chip> <addr>` (R122). -/
def readByteLine (chip : Profile) (addr : CellAddr) (p : Point) (s : State) : Result :=
  match p with
  | .selectChip => .next (s.selectChip chip)
  | .powerOn => .next s.powerOn
  | .pathOn => .next (s.openPath .readAddr)
  | .readAddr => .next (s.readAt addr)
  | .readSample => s.sampleBus (fun b t => (t.setB b).goto .powerDown)
  | .powerDown => .next s.powerDown
  | .powerOff => .next s.powerOff
  | .respond => .next (s.finish (hex2 s.eng.b ++ okTrailer))
  | _ => .fault .outsideCommand

/-- `r <chip> <addr>`, read one byte: one clock step of the command (R122, R115). -/
def execReadByte (chip : Profile) (addr : CellAddr) (s : State) : Result :=
  s.runCommand .selectChip (readByteLine chip addr)

/-- The head of the cell loop of `R` for the cell number `a`: the loop reads cell `a`, or, when `a` is `N`, is over, and
the line after it runs in this step (R118; the loop test takes no step of its own, 42_programming_engine.md R126;
what `scan_a` holds at the end: log 14). -/
def scanCell (chip : Profile) (a : BitVec 10) (s : State) : State :=
  if a.toNat < cellCount chip then (s.setScan a).readAt (a.truncate 9) else (s.setScan a).powerDown

/-- The lines of `R <chip>` (R118, R119). -/
def readAllLine (chip : Profile) (p : Point) (s : State) : Result :=
  match p with
  | .countCells => .next (s.goto .selectChip)
  | .selectChip => .next (s.selectChip chip)
  | .powerOn => .next s.powerOn
  | .pathOn => .next (s.openPath .scanFirst)
  | .scanFirst => .next (scanCell chip 0#10 s)
  | .readSample => s.sampleBus (fun b t => (t.setB b).goto .scanEmit)
  | .scanEmit => .next ((s.emit (hex2 s.eng.b)).goto .scanNext)
  | .scanNext => .next (scanCell chip (s.eng.scanA + 1#10) s)
  | .powerOff => .next s.powerOff
  | .respond => .next (s.finish (crlf ++ hex3 (BitVec.ofNat 12 (cellCount chip)) ++ okTrailer))
  | _ => .fault .outsideCommand

/-- `R <chip>`, dump the whole chip: one clock step of the command (R118, R115). -/
def execReadAll (chip : Profile) (s : State) : Result :=
  s.runCommand .countCells (readAllLine chip)

/-- `while a < N` of `K` and the line after the test (R120). -/
def blankCell (chip : Profile) (s : State) : State :=
  if s.eng.scanA.toNat < cellCount chip then s.readAt (s.eng.scanA.truncate 9) else s.powerDown

/-- `if b ≠ 0x00: break` of `K` and the line after the test: the first line of `PowerDown`, or `a <- a + 1` (R120). -/
def blankStep (s : State) : State :=
  if s.eng.b ≠ 0x00#8 then s.powerDown else (s.setScan (s.eng.scanA + 1#10)).goto .blankLoop

/-- The lines of `K <chip>` (R120, R121). -/
def blankCheckLine (chip : Profile) (p : Point) (s : State) : Result :=
  match p with
  | .countCells => .next (s.goto .selectChip)
  | .selectChip => .next (s.selectChip chip)
  | .powerOn => .next s.powerOn
  | .pathOn => .next (s.openPath .scanZero)
  | .scanZero => .next ((s.setScan 0#10).goto .blankLoop)
  | .blankLoop => .next (blankCell chip s)
  | .readSample => s.sampleBus (fun b t => (t.setB b).goto .blankTest)
  | .blankTest => .next (blankStep s)
  | .powerOff => .next s.powerOff
  | .respond => .next (s.finish (hex3 (s.eng.scanA.zeroExtend 12) ++ okTrailer))
  | _ => .fault .outsideCommand

/-- `K <chip>`, blank test: one clock step of the command (R120, R115). -/
def execBlankCheck (chip : Profile) (s : State) : Result :=
  s.runCommand .countCells (blankCheckLine chip)

end Sys2Proof.Machine
end

