-- ==== Sys2Proof/Machine/Version.lean ====
section
/-! DEFINITION. The command `V` (41_commands.md R117). -/

namespace Sys2Proof.Machine

/-- The lines of `V` (R117). -/
def versionLine (p : Point) (s : State) : Result :=
  match p with
  | .respond => .next (s.finish (Config.versionCode ++ okTrailer))
  | _ => .fault .outsideCommand

/-- `V`, version query: one clock step of the command (R117, R115). -/
def execVersion (s : State) : Result := s.runCommand .respond versionLine

end Sys2Proof.Machine
end

