-- ==== Sys2Proof/Machine/Dispatch.lean ====
section
/-! DEFINITION. One arm for each command: its meaning, one clock step of it. -/

namespace Sys2Proof.Machine

def exec (i : Instr) (s : State) : Host.Outcome State Fault Refusal :=
  match i with
  | .version => Sys2Proof.Machine.execVersion s
  | .readAll chip => Sys2Proof.Machine.execReadAll chip s
  | .blankCheck chip => Sys2Proof.Machine.execBlankCheck chip s
  | .readByte chip addr => Sys2Proof.Machine.execReadByte chip addr s
  | .program chip addr value => Sys2Proof.Machine.execProgram chip addr value s
  | .simulate chip addr value => Sys2Proof.Machine.execSimulate chip addr value s

end Sys2Proof.Machine
end

