-- ==== Sys2Proof/Machine/Operands.lean ====
section
/-! DEFINITION. The lexer, which takes a token byte by byte (40_interpreter.md R97 to R101), and the token handlers, which
read an operand from the ended token into the Command register (R107 to R110). -/

namespace Sys2Proof.Machine

/-! ### The lexer -/

/-- `hexval(c)` of a digit, 0 for every other byte (40_interpreter.md R97). -/
def digitOrZero (c : Byte) : Nat := (hexDigit? c).getD 0

/-- The byte is of class `OTHER`, for a byte of a token (30_encoding.md R68, R70). -/
def isNonhex (c : Byte) : Bool := (hexDigit? c).isNone

/-- The first byte of a token (40_interpreter.md R97). -/
def startToken (c : Byte) : Lexer :=
  { inTok := true, tokLen := 1#2, tok0 := c, tokNonhex := isNonhex c, acc := BitVec.ofNat 10 (digitOrZero c),
    ovf := false }

/-- A digit of value `d` goes into `acc` and `ovf` (R98). -/
def Lexer.addDigit (d : Nat) (l : Lexer) : Lexer :=
  let v := l.acc.toNat * 16 + d
  if l.ovf ∨ 0x3FF < v then { l with ovf := true } else { l with acc := BitVec.ofNat 10 v }

/-- A further byte of a token (R98). -/
def Lexer.continueToken (c : Byte) (l : Lexer) : Lexer :=
  let counted : Lexer :=
    { l with tokLen := if l.tokLen = 3#2 then 3#2 else l.tokLen + 1#2, tokNonhex := l.tokNonhex || isNonhex c }
  match hexDigit? c with
  | some d => counted.addDigit d
  | none => counted

/-- `LexAppend(c)` (R98). -/
def Lexer.append (c : Byte) (l : Lexer) : Lexer :=
  if l.inTok then l.continueToken c else startToken c

/-! ### The token handlers: a new Command register, or an error -/

/-- `H_CMD` (R107). -/
def handleCmd (l : Lexer) (r : Command) : Except Cause Command :=
  if l.tokLen = 1#2 then .ok { r with cmd := l.tok0 } else .error .badCmd

/-- `H_CHIP` (R108). -/
def handleChip (l : Lexer) (r : Command) : Except Cause Command :=
  if l.tokLen = 1#2 ∧ l.tok0 = asciiZero then .ok { r with chip := .p256 }
  else if l.tokLen = 1#2 ∧ l.tok0 = asciiOne then .ok { r with chip := .p512 }
  else .error .badChip

/-- `H_ADDR` (R109): `addr <- acc[8:0]`. -/
def handleAddr (l : Lexer) (r : Command) : Except Cause Command :=
  if l.tokNonhex then .error .badHex
  else if l.ovf ∨ cellCount r.chip ≤ l.acc.toNat then .error .range
  else .ok { r with addr := l.acc.truncate 9 }

/-- `H_VALUE` (R110): `value <- acc[7:0]`. -/
def handleValue (l : Lexer) (r : Command) : Except Cause Command :=
  if l.tokNonhex then .error .badHex
  else if l.ovf ∨ 0xFF < l.acc.toNat then .error .range
  else .ok { r with value := l.acc.truncate 8 }

end Sys2Proof.Machine
end

