-- ==== Sys2Proof/Machine/RuleTable.lean ====
section
/-! DEFINITION. The rule table T0 to T16 (30_encoding.md R84 to R87), an immutable constant, and its lookup. -/

namespace Sys2Proof.Machine

/-- The kinds of events (30_encoding.md R71). -/
inductive EventKind where
  /-- A token has ended. -/
  | tok
  /-- A line feed has been received. -/
  | eol
  deriving DecidableEq, Repr

/-- The handlers of the table (R84). -/
inductive Handler where
  | hCmd
  | hChip
  | hAddr
  | hValue
  | xVersion
  | xReadAll
  | xBlank
  | xReadByte
  | xWrite
  | xSimulate
  deriving DecidableEq, Repr

/-- A row (R84). -/
structure Row where
  /-- The command-char; `none` is the wildcard `*`. -/
  cmdChar : Option Byte
  /-- The required state; `none` is `Any` (10_state.md R28). -/
  required : Option ProtocolState
  /-- The event the row consumes. -/
  event : EventKind
  /-- The handler. -/
  handler : Handler
  /-- The next-state hint. -/
  hint : ProtocolState
  deriving DecidableEq, Repr

/-- The rows T0 to T16 in order (R84). -/
def ruleTable : List Row :=
  [ ⟨none, some .ready, .tok, .hCmd, .waitChip⟩,
    ⟨some cmdV, none, .eol, .xVersion, .ready⟩,
    ⟨some cmdR, some .waitChip, .tok, .hChip, .executing⟩,
    ⟨some cmdR, some .executing, .eol, .xReadAll, .ready⟩,
    ⟨some cmdK, some .waitChip, .tok, .hChip, .executing⟩,
    ⟨some cmdK, some .executing, .eol, .xBlank, .ready⟩,
    ⟨some cmdr, some .waitChip, .tok, .hChip, .waitAddress⟩,
    ⟨some cmdr, some .waitAddress, .tok, .hAddr, .executing⟩,
    ⟨some cmdr, some .executing, .eol, .xReadByte, .ready⟩,
    ⟨some cmdw, some .waitChip, .tok, .hChip, .waitAddress⟩,
    ⟨some cmdw, some .waitAddress, .tok, .hAddr, .waitValue⟩,
    ⟨some cmdw, some .waitValue, .tok, .hValue, .executing⟩,
    ⟨some cmdw, some .executing, .eol, .xWrite, .ready⟩,
    ⟨some cmds, some .waitChip, .tok, .hChip, .waitAddress⟩,
    ⟨some cmds, some .waitAddress, .tok, .hAddr, .waitValue⟩,
    ⟨some cmds, some .waitValue, .tok, .hValue, .executing⟩,
    ⟨some cmds, some .executing, .eol, .xSimulate, .ready⟩ ]

/-- A row matches (R85). -/
def Row.matches (row : Row) (cmd : Byte) (st : ProtocolState) (e : EventKind) : Bool :=
  (row.cmdChar = none || row.cmdChar = some cmd) && (row.required = none || row.required = some st) && row.event = e

/-- The first matching row (R85, 40_interpreter.md R103). -/
def lookupRow (cmd : Byte) (st : ProtocolState) (e : EventKind) : Option Row :=
  ruleTable.find? (fun row => row.matches cmd st e)

/-- The token handlers as functions of the lexer and the Command register; `none` for an execute handler. -/
def Handler.onToken : Handler → Option (Lexer → Command → Except Cause Command)
  | .hCmd => some handleCmd
  | .hChip => some handleChip
  | .hAddr => some handleAddr
  | .hValue => some handleValue
  | _ => none

/-- The command an execute handler runs, its operands read from the Command register (10_state.md R25); `none` for a token
handler. -/
def Handler.onLine : Handler → Command → Option Instr
  | .xVersion, _ => some .version
  | .xReadAll, r => some (.readAll r.chip)
  | .xBlank, r => some (.blankCheck r.chip)
  | .xReadByte, r => some (.readByte r.chip r.addr)
  | .xWrite, r => some (.program r.chip r.addr r.value)
  | .xSimulate, r => some (.simulate r.chip r.addr r.value)
  | _, _ => none

/-- The command the Command register holds, by its command byte (30_encoding.md R88); `none` for every other byte. -/
def Command.live (r : Command) : Option Instr :=
  if r.cmd = cmdV then some .version
  else if r.cmd = cmdR then some (.readAll r.chip)
  else if r.cmd = cmdK then some (.blankCheck r.chip)
  else if r.cmd = cmdr then some (.readByte r.chip r.addr)
  else if r.cmd = cmdw then some (.program r.chip r.addr r.value)
  else if r.cmd = cmds then some (.simulate r.chip r.addr r.value)
  else none

end Sys2Proof.Machine
end

