-- ==== Sys2Proof/Machine/Interpreter.lean ====
section
/-! DEFINITION. The Command Interpreter (40_interpreter.md): the dispatch of an event by the rule table, the byte step, and
the block's part of a clock step. -/

namespace Sys2Proof.Machine

/-- `Dispatch(TOK)` (40_interpreter.md R103, R104): the state with the Command register the handler wrote, the lexer cleared
(R100) and `st` as the handler returned it, or the cause of the error. -/
def tokenEvent (s : State) : Except Cause State :=
  match lookupRow s.command.cmd s.st .tok with
  | none => .error .noRule
  | some row =>
    match row.handler.onToken with
    | none => .error .noRule
    | some handler =>
      match handler s.lex s.command with
      | .error c => .error c
      | .ok command => .ok { s with command := command, lex := clearedLexer, st := row.hint }

/-- `Dispatch(EOL, term = LF)` (R103, R106, R111): in `Ready` nothing; with an execute row its command starts; else the error
transition. -/
def lineEvent (s : State) : Result :=
  if s.st = .ready then .next s
  else
    match lookupRow s.command.cmd s.st .eol with
    | none => .next (s.raise .noRule .lf)
    | some row =>
      match row.handler.onLine s.command with
      | none => .next (s.raise .noRule .lf)
      | some i => exec i s

/-- A delimiter ends the token, if one is begun (R96). -/
def delimByte (s : State) : Result :=
  if s.lex.inTok then
    match tokenEvent s with
    | .error c => .next (s.raise c .delim)
    | .ok t => .next t
  else .next s

/-- A line feed ends the token, if one is begun, and then, if that took no error, the line (R96). -/
def lfByte (s : State) : Result :=
  if s.lex.inTok then
    match tokenEvent s with
    | .error c => .next (s.raise c .lf)
    | .ok t => lineEvent t
  else lineEvent s

/-- The byte step of an accepted byte (R96). In the reserved protocol states, which are no states of the block, no rule
gives a next state at an event (10_state.md R31, 93_implementation_defined.md I11; log 15). -/
def byteStep (c : Byte) (s : State) : Result :=
  if s.discard then .next (s.discardByte c)
  else
    match classOf c with
    | .hex _ => .next { s with lex := s.lex.append c }
    | .other => .next { s with lex := s.lex.append c }
    | .delim => if s.st.reserved then .fault .reservedProtocolState else delimByte s
    | .lf => if s.st.reserved then .fault .reservedProtocolState else lfByte s

/-- One engine step: the live command runs on (R95 (2), 42_programming_engine.md R126). -/
def engineStep (s : State) : Result :=
  match s.command.live with
  | some i => exec i s
  | none => .fault .noLiveCommand

/-- The block's own part of a step with `rst` = 0 (R95 (2), (3)): an engine step, else the byte step of an accepted byte,
else nothing. -/
def blockStep (s : State) : Result :=
  if s.engineIdle then
    match s.accepted with
    | some c => byteStep c s.acceptByte
    | none => .next s
  else engineStep s

/-- A whole clock step (R95): reset wins; else the block's part, and with it the output queue, the chip and the inputs of
the step. -/
def clockStep (s : State) : Result :=
  if s.portsNow.rst then .next s.resetStep
  else andThen (blockStep s) (State.endStep s)

/-- The state in which the next byte, an LF, makes the command `i` start: all its tokens read, its line feed offered. -/
def State.holding (i : Instr) (s : State) : State :=
  { s with
    st := if i = .version then .waitChip else .executing
    command :=
      match i with
      | .version => { emptyCommand with cmd := cmdV }
      | .readAll chip => { emptyCommand with cmd := cmdR, chip := chip }
      | .blankCheck chip => { emptyCommand with cmd := cmdK, chip := chip }
      | .readByte chip addr => { emptyCommand with cmd := cmdr, chip := chip, addr := addr }
      | .program chip addr value => { cmd := cmdw, chip := chip, addr := addr, value := value }
      | .simulate chip addr value => { cmd := cmds, chip := chip, addr := addr, value := value }
    lex := clearedLexer
    discard := false
    busy := false
    txq := []
    eng := { s.eng with point := .idle }
    host := { s.host with ports := defaultPorts :: s.host.ports.tail, rx := asciiLF :: s.host.rx } }

/-- The state in which the next bytes offered are those of a line the decoder rejects. -/
def State.offering (line : List Byte) (s : State) : State :=
  { s with host := { s.host with ports := defaultPorts :: s.host.ports.tail, rx := line ++ [asciiLF] ++ s.host.rx } }

/-- The instruction of a table word placed where the next step takes it (log 2). -/
def placeWord (nbits w : Nat) (s : State) : State :=
  match decodeTableWord nbits w with
  | some i => s.holding i
  | none => s.offering (tableLine nbits w)

end Sys2Proof.Machine
end

