-- ==== Sys2Proof/Machine/Step.lean ====
section
/-! DEFINITION. The step of the machine: one clock cycle of the block with the environment it faces (40_interpreter.md
R95). -/

namespace Sys2Proof.Machine

/-- One clock cycle (00_scope.md R21, 40_interpreter.md R95). -/
def step (s : State) : Host.Outcome State Fault Refusal := clockStep s

/-- `s` with the instruction of a table word where the next step takes it: its fields in the Command register and its line
feed offered, the engine idle and the block ready to accept (log 2). -/
def State.withFetchWord (s : State) (nbits w : Nat) : State := placeWord nbits w s

end Sys2Proof.Machine
end

