-- ==== Sys2Proof/Safety.lean ====
section
/-! DEFINITION. What claims about the machine are stated in: runs without reset, the invariant of the block's states, the
start of a command, and the closed forms of the spec for what a command answers. -/

namespace Sys2Proof.Machine

/-! ### Runs -/

/-- `n` clock cycles. -/
def runs (n : Nat) (s : State) : Result := Sys2Proof.core.run n s

/-- The environment asserts no reset in the coming cycles. -/
def State.noReset (s : State) : Prop := ∀ p ∈ s.host.ports, p.rst = false

/-- The host offers every byte it has in the coming cycles. -/
def State.alwaysOffers (s : State) : Prop := ∀ p ∈ s.host.ports, p.rxValid = true

/-- The response bytes of the run so far, taken or still queued, in order (10_state.md R39, R42). -/
def State.output (s : State) : List Byte := s.host.taken ++ s.txq

/-! ### The lines of each command -/

/-- The profile a command selects; `V` selects none and is given the one `chip_sel` has after reset. -/
def profileOf : Instr → Profile
  | .version => .p256
  | .readAll chip => chip
  | .blankCheck chip => chip
  | .readByte chip _ => chip
  | .program chip _ _ => chip
  | .simulate chip _ _ => chip

/-- The first line of a command's pseudocode. -/
def firstPoint : Instr → Point
  | .version => .respond
  | .readAll _ => .countCells
  | .blankCheck _ => .countCells
  | .readByte _ _ => .selectChip
  | .program _ _ _ => .selectChip
  | .simulate _ _ _ => .selectChip

/-- The points of a command's pseudocode (41_commands.md R117 to R124, 42_programming_engine.md R139). -/
def pointsOf : Instr → List Point
  | .version => [.respond]
  | .readAll _ =>
    [.countCells, .selectChip, .powerOn, .pathOn, .scanFirst, .readSample, .scanEmit, .scanNext, .powerOff, .respond]
  | .blankCheck _ =>
    [.countCells, .selectChip, .powerOn, .pathOn, .scanZero, .blankLoop, .readSample, .blankTest, .powerOff, .respond]
  | .readByte _ _ => [.selectChip, .powerOn, .pathOn, .readAddr, .readSample, .powerDown, .powerOff, .respond]
  | .program _ _ _ =>
    [.selectChip, .powerOn, .pathOn, .readAddr, .readSample, .pathOff, .setTarget, .copyExisting, .burnTest, .burnRaise,
     .burnEnable, .burnDisable, .burnDrop, .burnRelease, .verifyEnable, .verifySample, .verifyTest, .bitNext, .powerOff,
     .respond]
  | .simulate _ _ _ =>
    [.selectChip, .powerOn, .pathOn, .readAddr, .readSample, .pathOff, .setTarget, .copyExisting, .burnTest, .bitNext,
     .powerOff, .respond]

/-- The level of `supply` when the engine has come to a point. -/
def Point.supplyAt : Point → Supply
  | .idle => .off
  | .countCells => .off
  | .selectChip => .off
  | .powerOn => .off
  | .respond => .off
  | .burnEnable => .program
  | .burnDisable => .program
  | .burnDrop => .program
  | _ => .nominal

/-- The level of `en` when the engine has come to a point. -/
def Point.enableAt : Point → Bool
  | .scanZero => true
  | .scanFirst => true
  | .scanNext => true
  | .blankLoop => true
  | .readAddr => true
  | .readSample => true
  | .scanEmit => true
  | .blankTest => true
  | .pathOff => true
  | .powerDown => true
  | .burnDisable => true
  | .verifySample => true
  | _ => false

/-- How far a programming sequence has come when the engine has come to a point (42_programming_engine.md R135). -/
def Point.stageAt : Point → Stage
  | .burnRaise => .selected
  | .burnEnable => .settling
  | .burnDisable => .pulsing
  | .burnDrop => .pulsed
  | .burnRelease => .dropped
  | _ => .quiet

/-- The points of the pulse and of its verify: a bit is being resolved. -/
def Point.resolvesBit : Point → Bool
  | .burnRaise => true
  | .burnEnable => true
  | .burnDisable => true
  | .burnDrop => true
  | .burnRelease => true
  | .verifyEnable => true
  | .verifySample => true
  | .verifyTest => true
  | _ => false

/-- The points at which `PowerUp`'s first line has run: the profile stands on `chip_sel`. -/
def Point.profileSet : Point → Bool
  | .idle => false
  | .countCells => false
  | .selectChip => false
  | _ => true

/-- The points at which the command's cell stands on `abus`. -/
def Point.addressSet : Point → Bool
  | .readSample => true
  | .scanEmit => true
  | .scanNext => true
  | .blankTest => true
  | .pathOff => true
  | .setTarget => true
  | .copyExisting => true
  | .burnTest => true
  | .burnRaise => true
  | .burnEnable => true
  | .burnDisable => true
  | .burnDrop => true
  | .burnRelease => true
  | .verifyEnable => true
  | .verifySample => true
  | .verifyTest => true
  | .bitNext => true
  | _ => false

/-- The points after `target <- value; real <- …` and before the power goes down. -/
def Point.modeSet : Point → Bool
  | .copyExisting => true
  | .burnTest => true
  | .bitNext => true
  | p => p.resolvesBit

/-- The interval that ends at a point, counted by `tmr` (42_programming_engine.md R127). -/
def Point.delay : Point → Option Nat
  | .pathOn => some Config.nPwrup
  | .readSample => some Config.nRead
  | .burnEnable => some Config.nSettle
  | .burnDisable => some Config.nPulse
  | .verifySample => some Config.nRead
  | .verifyTest => some Config.nCool
  | _ => none

/-- The cell a command works on when its address is set. -/
def cellOf (i : Instr) (scan : BitVec 10) : CellAddr :=
  match i with
  | .version => 0#9
  | .readAll _ => scan.truncate 9
  | .blankCheck _ => scan.truncate 9
  | .readByte _ addr => addr
  | .program _ addr _ => addr
  | .simulate _ addr _ => addr

/-- The command walks over the cells. -/
def scans : Instr → Bool
  | .readAll _ => true
  | .blankCheck _ => true
  | _ => false

/-- The command runs in real mode (42_programming_engine.md R138). -/
def programs : Instr → Bool
  | .program _ _ _ => true
  | _ => false

/-! ### The invariant -/

/-- The engine runs `i` and everything stands as the lines run so far have left it. -/
structure EngineOk (i : Instr) (s : State) : Prop where
  /-- The engine is at a line of the command. -/
  point : s.eng.point ∈ pointsOf i
  /-- The supply level of the point. -/
  supply : s.bus.supply = s.eng.point.supplyAt
  /-- The enable level of the point. -/
  enable : s.bus.en = s.eng.point.enableAt
  /-- The chip has seen the programming sequence as far as the engine has made it. -/
  stage : s.chip.stage = s.eng.point.stageAt
  /-- One data line is driven in a programming sequence, none outside it (70_reset_and_hazards.md R172). -/
  line : s.bus.progSel = if s.eng.point.stageAt = .quiet then 0x00#8 else onehot8 s.eng.bit.toNat
  /-- The selected profile. -/
  profile : s.eng.point.profileSet = true → i ≠ .version → s.bus.chipSel = profileOf i
  /-- The addressed cell (R173). -/
  cell : s.eng.point.addressSet = true → s.bus.abus = cellOf i s.eng.scanA
  /-- A scan stays inside the cell array (20_memory.md R60). -/
  scan : scans i = true → s.eng.point.addressSet = true → s.eng.scanA.toNat < cellCount (profileOf i)
  /-- The bit being resolved is unset in the chip and set in the target (42_programming_engine.md R139). -/
  bit : s.eng.point.resolvesBit = true → s.eng.bit.toNat < 8 ∧ s.eng.existing.getLsbD s.eng.bit.toNat = false ∧
    s.eng.target.getLsbD s.eng.bit.toNat = true
  /-- The mode is the command's (R138). -/
  mode : s.eng.point.modeSet = true → s.eng.real = programs i
  /-- Outside a wait the timer stands at 0. -/
  timer : s.eng.point.delay = none → s.eng.tmr = 0#32
  /-- A wait ends exactly when the outputs have stood for its interval; for the address of a read, at least (R127). -/
  wait : ∀ n, s.eng.point.delay = some n →
    n ≤ s.chip.held + s.eng.tmr.toNat ∧ (s.eng.point ≠ .readSample → s.chip.held + s.eng.tmr.toNat = n)

/-- The block's invariant: what holds in every state of the block (10_state.md R26, R30, R31, R35, R38). -/
structure Inv (s : State) : Prop where
  /-- The memory has its canonical form. -/
  cells : s.chip.cells.wf = true
  /-- The address outputs name a cell that exists (00_scope.md R10, 20_memory.md R60). -/
  address : addrInRange s.bus.chipSel s.bus.abus = true
  /-- The reserved protocol states are unreachable (10_state.md R31). -/
  protocol : s.st.reserved = false
  /-- Outside a token the lexer is cleared (40_interpreter.md R100). -/
  lexer : s.lex.inTok = false → s.lex = clearedLexer
  /-- Inside a token at least one byte has been read (40_interpreter.md R97). -/
  token : s.lex.inTok = true → s.lex.tokLen ≠ 0#2
  /-- In `Ready` the Command register is empty (10_state.md R30). -/
  ready : s.st = .ready → s.command = emptyCommand
  /-- While the rest of a line is discarded, the interpreter is in `Ready` outside a token (R33, 40_interpreter.md R113). -/
  discarding : s.discard = true → s.st = .ready ∧ s.lex.inTok = false
  /-- The bound invariant (R26). -/
  bounds : s.st = .waitValue ∨ s.st = .executing → ∀ i, s.command.live = some i → i.wellFormed = true
  /-- `Executing` is entered with one of the six commands. -/
  executing : s.st = .executing → s.command.live ≠ none
  /-- With the engine idle the outputs stand at their idle values (R38). -/
  idle : s.eng.point = .idle → s.bus.supply = .off ∧ s.bus.en = false ∧ s.bus.progSel = 0x00#8 ∧ s.chip.stage = .quiet ∧
    s.eng.tmr = 0#32
  /-- The counters keep the ranges of R37. -/
  counters : s.eng.bit.toNat ≤ 8 ∧ s.eng.scanA.toNat ≤ 512
  /-- `busy` covers the execution and the draining of a response (R35). -/
  busy : s.busy = !(s.engineIdle && s.txq.isEmpty)
  /-- While the engine runs, a command is live and no event is dispatched (40_interpreter.md R111, 60_exceptions.md
  R148 (d)). -/
  running : s.eng.point ≠ .idle → s.st = .executing ∧ s.discard = false ∧ s.lex.inTok = false ∧ s.errCause = .none ∧
    ∃ i, s.command.live = some i ∧ EngineOk i s

/-! ### The start of a command and of a line -/

/-- The block stands between two requests and reads the next byte as the first of a line: `Ready`, nothing begun, nothing
queued, and no reset comes. -/
structure State.awaitsLine (s : State) : Prop where
  inv : Inv s
  noReset : s.noReset
  ready : s.st = .ready
  outside : s.lex.inTok = false
  keeps : s.discard = false
  free : s.busy = false

/-- The state in which the `EOL` of an LF is dispatched: after the token that the LF ends, if one is begun
(40_interpreter.md R96); or the cause of that token's error. -/
def State.atLineEnd (s : State) : Except Cause State :=
  if s.lex.inTok then tokenEvent s else .ok s

/-- The LF of a line is accepted in this cycle and its `EOL` matches the execute row of the command `i`: the command starts
now (40_interpreter.md R103, R111; `V` in any state but `Ready`, R84 row T1). No reset comes in the coming cycles. -/
structure State.begins (s : State) (i : Instr) : Prop where
  inv : Inv s
  noReset : s.noReset
  keeps : s.discard = false
  accepts : s.accepted = some asciiLF
  line : ∃ u, s.atLineEnd = .ok u ∧ u.command.live = some i ∧ (u.st = .executing ∨ i = .version ∧ u.st ≠ .ready)

/-- The command `i` of the line that ends in this cycle starts: its meaning, at the end of the line, answers the start of
its first line, and the cycle ends in that start (40_interpreter.md R111). -/
def State.starts (s : State) (i : Instr) : Prop :=
  ∃ u t, s.acceptByte.atLineEnd = .ok u ∧ exec i u = .next (u.start (firstPoint i)) ∧ step s = .next t ∧
    t.eng.point = firstPoint i ∧ t.st = .executing ∧ t.busy = true ∧ t.errCause = .none ∧ t.command = u.command

/-- A command that began in `s` has ended in `t` with a response: the engine is idle, the block in `Ready` with its Command
register and lexer empty, the chip off, exactly the LF consumed (41_commands.md R115 (c), (d), 40_interpreter.md R112). -/
structure State.answered (s t : State) (response : List Byte) : Prop where
  inv : Inv t
  noReset : t.noReset
  ended : t.eng.point = .idle
  ready : t.st = .ready
  emptied : t.command = emptyCommand
  lexer : t.lex = clearedLexer
  keeps : t.discard = false
  noCause : t.errCause = .none
  off : t.bus.supply = .off ∧ t.bus.en = false ∧ t.bus.progSel = 0x00#8
  output : t.output = s.output ++ response
  stream : t.host.rx = s.host.rx.tail
  socket : t.chip.socket = s.chip.socket

/-- The cause of the error that the `EOL` of this state raises, if it raises one (40_interpreter.md R103, R105, R106). -/
def State.lineCause (s : State) : Option Cause :=
  if s.st ≠ .ready ∧ lookupRow s.command.cmd s.st .eol = none then some .noRule else none

/-- The cause of the error that the byte `c` raises, if it raises one: at the token it ends, or, for an LF, at the end of
the line (40_interpreter.md R96, R103). -/
def State.byteCause (s : State) (c : Byte) : Option Cause :=
  if classOf c = .delim ∨ classOf c = .lf then
    match s.atLineEnd with
    | .error cause => some cause
    | .ok u => if classOf c = .lf then u.lineCause else none
  else none

/-- The lexer after the bytes of a token (40_interpreter.md R97, R98). -/
def lexToken (t : Token) : Lexer := t.foldl (fun l c => l.append c) clearedLexer

/-! ### The outputs of a pulse -/

/-- The outputs `k` cycles after the first line of `BurnPulse` has taken effect with the outputs `b`: the programming
level, after `N_SETTLE` cycles the enable for `N_PULSE` cycles, then enable, level and data line released one after another
(42_programming_engine.md R135, R127). -/
def pulseBus (b : Bus) (k : Nat) : Bus :=
  if k = 0 then b
  else if k ≤ Config.nSettle then { b with supply := .program }
  else if k ≤ Config.nSettle + Config.nPulse then { b with supply := .program, en := true }
  else if k = Config.nSettle + Config.nPulse + 1 then { b with supply := .program }
  else if k = Config.nSettle + Config.nPulse + 2 then b
  else { b with progSel := 0x00#8 }

/-! ### The closed forms of the spec -/

/-- The bytes of all the cells below `n`, cell 0 first, as `R` sends them (41_commands.md R119). -/
def dumpCells (m : Memory) : Nat → List Byte
  | 0 => []
  | n + 1 => dumpCells m n ++ hex2 (readCell m n)

/-- The least cell number below `n` whose cell is not blank, or `n` (41_commands.md R121). -/
def firstNonblank (m : Memory) : Nat → Nat
  | 0 => 0
  | n + 1 => if firstNonblank m n < n then firstNonblank m n else if readCell m n ≠ 0x00#8 then n else n + 1

/-- `imp`: bits set in the chip and unset in the target (42_programming_engine.md R140). -/
def impossibleBits (existing target : Byte) : Byte := existing &&& ~~~target

/-- `burn`: burnable bits (R140). -/
def burnableBits (existing target : Byte) : Byte := ~~~existing &&& target

/-- The lowest of the `n` positions from `i` on at which `p` holds, or `i + n`. -/
def lowestFrom (p : Nat → Bool) : Nat → Nat → Nat
  | 0, i => i
  | n + 1, i => if p i then i else lowestFrom p n (i + 1)

/-- `low(j)`: the bits below position `j` (R140). -/
def lowMask (j : Nat) : Byte := BitVec.ofNat 8 (2 ^ j - 1)

/-- The number of set bits. -/
def popcount (v : Byte) : Nat := ((List.range 8).filter (fun i => v.getLsbD i)).length

/-- `k`: the position of the lowest impossible bit, or 8 (R140). -/
def impossibleAt (existing target : Byte) : Nat := lowestFrom (impossibleBits existing target).getLsbD 8 0

/-- `f`: the lowest burnable position below `k` whose fuse does not blow, the draws counted from `d`, one for each pulse; or
8 if there is none (R140). -/
def failsAt (existing target : Byte) (d : Nat) : Nat :=
  lowestFrom
    (fun j => decide (j < impossibleAt existing target) && (burnableBits existing target).getLsbD j &&
      !Config.fuseBlows (d + popcount (burnableBits existing target &&& lowMask j))) 8 0

/-- The result of a simulated write (R140). -/
def simulatedByte (existing target : Byte) : Byte :=
  existing ||| (burnableBits existing target &&& lowMask (impossibleAt existing target))

/-- The result of a real write, the draws counted from `d` (R140). -/
def programmedByte (existing target : Byte) (d : Nat) : Byte :=
  existing ||| (burnableBits existing target &&& lowMask (min (impossibleAt existing target) (failsAt existing target d)))

/-- The number of pulses of a real write, the draws counted from `d` (R140). -/
def pulseCount (existing target : Byte) (d : Nat) : Nat :=
  if failsAt existing target d < 8 then
    popcount (burnableBits existing target &&& lowMask (min (impossibleAt existing target) (failsAt existing target d + 1)))
  else popcount (burnableBits existing target &&& lowMask (impossibleAt existing target))

/-- The whole response of a command on a chip with the cells `m`, the draws counted from `d` (30_encoding.md R83). -/
def responseOf (i : Instr) (m : Memory) (d : Nat) : List Byte :=
  match i with
  | .version => Config.versionCode ++ okTrailer
  | .readAll chip =>
    dumpCells m (cellCount chip) ++ crlf ++ hex3 (BitVec.ofNat 12 (cellCount chip)) ++ okTrailer
  | .blankCheck chip => hex3 (BitVec.ofNat 12 (firstNonblank m (cellCount chip))) ++ okTrailer
  | .readByte _ addr => hex2 (readCell m addr.toNat) ++ okTrailer
  | .program _ addr value => hex2 (programmedByte (readCell m addr.toNat) value d) ++ okTrailer
  | .simulate _ addr value => hex2 (simulatedByte (readCell m addr.toNat) value) ++ okTrailer

/-- Cell `a` after a command, the draws counted from `d` (42_programming_engine.md R141). -/
def cellAfter (i : Instr) (m : Memory) (d a : Nat) : Byte :=
  match i with
  | .program _ addr value =>
    if a = addr.toNat then programmedByte (readCell m a) value d else readCell m a
  | _ => readCell m a

end Sys2Proof.Machine
end

