-- ==== Sys2Proof/Certificates/Slice0/Obligations.lean ====
section
/-! DEFINITION. The statements for the provers: what the rules of spec/ say of reset, the byte stream, the interpreter, the
exception, the engine, the bus and the chip, and of the six commands. Every state of the block is a state with `Inv`
(10_state.md); statements whose rule needs no more than the state at hand have no such premise. -/

section

open Sys2Proof Sys2Proof.Machine

/-! ### Reset -/

/-- 10_state.md R44, with R25, R32, R33, R35 to R39. -/
def Obligations.ResetValues : Prop :=
  State.reset.st = .ready ∧
  State.reset.command = { cmd := 0x00#8, chip := .p256, addr := 0#9, value := 0x00#8 } ∧
  State.reset.lex =
    { inTok := false, tokLen := 0#2, tok0 := 0x00#8, tokNonhex := false, acc := 0#10, ovf := false } ∧
  State.reset.discard = false ∧ State.reset.busy = false ∧ causeCode State.reset.errCause = 0b000#3 ∧
  State.reset.eng.eph = 0#4 ∧ State.reset.eng.existing = 0x00#8 ∧ State.reset.eng.target = 0x00#8 ∧
  State.reset.eng.achieved = 0x00#8 ∧ State.reset.eng.bit = 0#4 ∧ State.reset.eng.real = false ∧
  State.reset.eng.scanA = 0#10 ∧ State.reset.eng.tmr = 0#32 ∧
  State.reset.bus = { chipSel := .p256, abus := 0#9, progSel := 0x00#8, supply := .off, en := false } ∧
  State.reset.txq = []

/-- 70_reset_and_hazards.md R165, whatever else holds in the state: every register of R44, the queue and the outputs; the
step accepts no byte; the next step, without reset, is ready to read the first byte of a request. `b` and `ok` are no
registers of the spec (log 11). -/
def Obligations.ResetStep : Prop :=
  ∀ s : State, s.portsNow.rst = true →
    s.rxReady = false ∧
    ∃ t, step s = .next t ∧ t.st = State.reset.st ∧ t.command = State.reset.command ∧ t.lex = State.reset.lex ∧
      t.discard = State.reset.discard ∧ t.busy = State.reset.busy ∧ t.errCause = State.reset.errCause ∧
      { t.eng with b := State.reset.eng.b, ok := State.reset.eng.ok } = State.reset.eng ∧
      t.bus = State.reset.bus ∧ t.txq = [] ∧ t.host.rx = s.host.rx ∧
      (t.portsNow.rst = false → t.rxReady = true)

/-- 70_reset_and_hazards.md R166 and 20_memory.md R52: a reset loses the queue and keeps both streams; in the chip at most
the driven bit of the addressed cell can change, and only inside a programming sequence (the stages: log 16). -/
def Obligations.ResetKeepsChip : Prop :=
  ∀ s t : State, s.chip.cells.wf = true → s.portsNow.rst = true → step s = .next t →
    t.txq = [] ∧ t.host.taken = s.host.taken ∧ t.host.rx = s.host.rx ∧ t.bus.en = false ∧ t.bus.supply = .off ∧
    (s.chip.stage = .quiet → t.chip.cells = s.chip.cells) ∧
    (∀ a, a ≠ s.bus.abus.toNat → readCell t.chip.cells a = readCell s.chip.cells a) ∧
    (readCell t.chip.cells s.bus.abus.toNat = readCell s.chip.cells s.bus.abus.toNat ∨
      readCell t.chip.cells s.bus.abus.toNat = readCell s.chip.cells s.bus.abus.toNat ||| s.bus.progSel)

/-! ### The byte streams -/

/-- 10_state.md R41: a byte is accepted exactly when it is offered and the block is ready, and then it and no other leaves
the stream. -/
def Obligations.ByteAccepted : Prop :=
  (∀ s : State, s.rxReady = true ↔
    s.busy = false ∧ s.eng.point = .idle ∧ s.txq = [] ∧ s.portsNow.rst = false) ∧
  (∀ (s : State) (c : Byte), s.accepted = some c ↔
    s.portsNow.rxValid = true ∧ s.rxReady = true ∧ s.host.rx.head? = some c) ∧
  (∀ s t : State, step s = .next t →
    t.host.rx = if s.accepted = none then s.host.rx else s.host.rx.tail)

/-- 10_state.md R39, R42, with no reset: the queue offers its first byte, loses exactly a byte that is taken, and gets new
bytes at its end only. That a step takes a byte only if the queue held it when the step began, so that a byte emitted in a
step is taken in a later one, is the model's reading (log 22). -/
def Obligations.OutputQueue : Prop :=
  (∀ (bytes : List Byte) (s : State), (s.emit bytes).txq = s.txq ++ bytes) ∧
  (∀ s : State, (s.txValid = true ↔ s.txq ≠ []) ∧ s.txData = s.txq.head?) ∧
  State.reset.txq = [] ∧
  (∀ s t : State, s.portsNow.rst = false → step s = .next t →
    ∃ new,
      t.txq = (if s.portsNow.txReady then s.txq.tail else s.txq) ++ new ∧
      t.host.taken = s.host.taken ++ (if s.portsNow.txReady then s.txq.head?.toList else []))

/-! ### Encoding -/

/-- 30_encoding.md R68, R69: the four classes and the digit values, byte by byte. -/
def Obligations.ByteClasses : Prop :=
  ∀ c : Byte,
    (classOf c = .lf ↔ c = 0x0A#8) ∧
    (classOf c = .delim ↔ c = 0x20#8 ∨ c = 0x09#8 ∨ c = 0x0D#8) ∧
    (∀ v, classOf c = .hex v ↔
      (0x30 ≤ c.toNat ∧ c.toNat ≤ 0x39 ∧ v = c.toNat - 0x30) ∨
      (0x41 ≤ c.toNat ∧ c.toNat ≤ 0x46 ∧ v = c.toNat - 0x41 + 10) ∨
      (0x61 ≤ c.toNat ∧ c.toNat ≤ 0x66 ∧ v = c.toNat - 0x61 + 10)) ∧
    (classOf c = .other ↔ classOf c ≠ .lf ∧ classOf c ≠ .delim ∧ hexDigit? c = none)

/-- A sanity check of the decoder on requests written out byte by byte from 30_encoding.md R72 to R76. -/
def Obligations.WordsDecode : Prop :=
  decode [0x56, 0x0A] = .request .version [] ∧
  decode [0x52, 0x20, 0x30, 0x0A] = .request (.readAll .p256) [] ∧
  decode [0x4B, 0x09, 0x31, 0x20, 0x0D, 0x0A, 0x56] = .request (.blankCheck .p512) [0x56] ∧
  decode [0x72, 0x20, 0x31, 0x20, 0x31, 0x66, 0x46, 0x0A] = .request (.readByte .p512 0x1FF#9) [] ∧
  decode [0x77, 0x20, 0x30, 0x20, 0x31, 0x41, 0x20, 0x43, 0x33, 0x0A] =
    .request (.program .p256 0x01A#9 0xC3#8) [] ∧
  decode [0x73, 0x20, 0x30, 0x20, 0x30, 0x30, 0x30, 0x20, 0x37, 0x0A] =
    .request (.simulate .p256 0x000#9 0x07#8) []

/-- Decode and encode agree: every well-formed instruction, its operands at every value the grammar admits, whatever
follows the line (30_encoding.md R72 to R77, R93). -/
def Obligations.DecodeEncode : Prop :=
  ∀ (i : Instr) (rest : List Byte), i.wellFormed = true → decode (encode i ++ rest) = .request i rest

/-- What the decoder admits is well formed, and it reads exactly the bytes up to the first LF (R76, R77). -/
def Obligations.DecodedIsWellFormed : Prop :=
  ∀ (bytes rest : List Byte) (i : Instr), decode bytes = .request i rest →
    i.wellFormed = true ∧ ∃ line, bytes = line ++ [asciiLF] ++ rest ∧ asciiLF ∉ line

/-- 40_interpreter.md R102 for the decoder: only an LF ends a line, and a CR before it changes nothing. -/
def Obligations.CarriageReturnIsDelimiter : Prop :=
  (∀ bytes, decode bytes = .unterminated ↔ asciiLF ∉ bytes) ∧
  (∀ line rest, asciiLF ∉ line →
    decode (line ++ [asciiCR, asciiLF] ++ rest) = decode (line ++ [asciiLF] ++ rest))

/-- 30_encoding.md R89, R90, every shape that is `NO_RULE`: a one-byte command token that is none of the six bytes, whatever
follows it; a token after `V`; a line of each other command that ends after its command byte, its chip or its address; a
token after the last field of `R`, `K`, `r`, `w` or `s`. The fields before the gap or the extra token are good ones. -/
def Obligations.IllegalLines : Prop :=
  ∀ (line rest : List Byte) (chip : Profile), asciiLF ∉ line →
    let noRule := decode (line ++ [asciiLF] ++ rest) = .malformed .noRule rest
    (∀ c fields, tokens line = [c] :: fields → c ∉ [0x56#8, 0x52#8, 0x4B#8, 0x72#8, 0x77#8, 0x73#8] → noRule) ∧
    (∀ t fields, tokens line = [0x56#8] :: t :: fields → noRule) ∧
    (∀ c, c ∈ [0x52#8, 0x4B#8, 0x72#8, 0x77#8, 0x73#8] → tokens line = [[c]] → noRule) ∧
    (∀ c, c ∈ [0x72#8, 0x77#8, 0x73#8] → tokens line = [[c], [chipToken chip]] → noRule) ∧
    (∀ c t fields, c ∈ [0x52#8, 0x4B#8] → tokens line = [c] :: [chipToken chip] :: t :: fields → noRule) ∧
    ∀ addr a, hexValue addr = some a → a < cellCount chip →
      (∀ c, c ∈ [0x77#8, 0x73#8] → tokens line = [[c], [chipToken chip], addr] → noRule) ∧
      (∀ t fields, tokens line = [0x72#8] :: [chipToken chip] :: addr :: t :: fields → noRule) ∧
      (∀ c value v t fields, c ∈ [0x77#8, 0x73#8] → hexValue value = some v → v < 0x100 →
        tokens line = [c] :: [chipToken chip] :: addr :: value :: t :: fields → noRule)

/-- The other causes of 30_encoding.md R90, with R73 to R76: the first bad field of a line, the fields before it good ones,
gives its cause, whatever follows. A field with a byte that is no digit is `BAD_HEX`, one of digits out of bound `RANGE`. -/
def Obligations.BadFields : Prop :=
  ∀ (line rest : List Byte) (chip : Profile), asciiLF ∉ line →
    let rejects (cause : Cause) := decode (line ++ [asciiLF] ++ rest) = .malformed cause rest
    let bad (t : Token) (bound : Nat) :=
      (hexValue t = none → rejects .badHex) ∧ (∀ v, hexValue t = some v → bound ≤ v → rejects .range)
    (∀ t fields, tokens line = t :: fields → t.length ≠ 1 → rejects .badCmd) ∧
    (∀ c t fields, c ∈ [0x52#8, 0x4B#8, 0x72#8, 0x77#8, 0x73#8] → tokens line = [c] :: t :: fields →
      t ≠ [0x30#8] → t ≠ [0x31#8] → rejects .badChip) ∧
    (∀ c t fields, c ∈ [0x72#8, 0x77#8, 0x73#8] → tokens line = [c] :: [chipToken chip] :: t :: fields →
      bad t (cellCount chip)) ∧
    ∀ c addr a t fields, c ∈ [0x77#8, 0x73#8] → hexValue addr = some a → a < cellCount chip →
      tokens line = [c] :: [chipToken chip] :: addr :: t :: fields → bad t 0x100

/-! ### The lexer, the rule table and the token handlers -/

/-- 40_interpreter.md R99, the value law of the streaming lexer. -/
def Obligations.LexerValueLaw : Prop :=
  (∀ (t : Token) (v : Nat), t ≠ [] → hexValue t = some v →
    (v ≤ 0x3FF → (lexToken t).ovf = false ∧ (lexToken t).acc.toNat = v) ∧
    (0x3FF < v → (lexToken t).ovf = true) ∧
    (∀ bound, bound ≤ 0x3FF → (v < bound ↔ (lexToken t).ovf = false ∧ (lexToken t).acc.toNat < bound)) ∧
    (∀ zeros, (lexToken (List.replicate zeros 0x30#8)).ovf = false ∧
      (lexToken (List.replicate zeros 0x30#8 ++ t)).ovf = (lexToken t).ovf)) ∧
  (∀ p, cellCount p ≤ 0x200) ∧ 0xFF + 1 ≤ 0x200

/-- 40_interpreter.md R107 to R110 through the lexer R97, R98: on a token of any length, the streaming lexer with a handler
reads what the grammar's field gives (30_encoding.md R73 to R76), and raises the same cause. -/
def Obligations.HandlersReadTokens : Prop :=
  ∀ (t : Token) (r : Command), t ≠ [] →
    handleCmd (lexToken t) r = (match t with
      | [c] => .ok { r with cmd := c }
      | _ => .error .badCmd) ∧
    handleChip (lexToken t) r = (chipField t).map (fun p => { r with chip := p }) ∧
    handleAddr (lexToken t) r = (addrField r.chip t).map (fun a => { r with addr := a }) ∧
    handleValue (lexToken t) r = (valueField t).map (fun v => { r with value := v })

/-- 30_encoding.md R85: when a row matches, the first match in order, and at most one match. -/
def Obligations.RuleTableLookup : Prop :=
  ∀ (cmd : Byte) (st : ProtocolState) (e : EventKind),
    (∀ row ∈ ruleTable, row.matches cmd st e = true ↔
      (row.cmdChar = none ∨ row.cmdChar = some cmd) ∧ (row.required = none ∨ row.required = some st) ∧ row.event = e) ∧
    lookupRow cmd st e = (ruleTable.filter (fun row => row.matches cmd st e)).head? ∧
    (ruleTable.filter (fun row => row.matches cmd st e)).length ≤ 1

/-- The `TOK` events of 30_encoding.md R84 by 40_interpreter.md R103, R104, R105: which handler reads the token in which
protocol state, the state adopted, and `NO_RULE` everywhere else. -/
def Obligations.TokenEvents : Prop :=
  ∀ s : State,
    let adopt (next : ProtocolState) (r : Command) : State := { s with command := r, lex := clearedLexer, st := next }
    tokenEvent s = match s.st with
      | .ready => (handleCmd s.lex s.command).map (adopt .waitChip)
      | .waitChip =>
        if s.command.cmd ∈ [cmdR, cmdK] then (handleChip s.lex s.command).map (adopt .executing)
        else if s.command.cmd ∈ [cmdr, cmdw, cmds] then (handleChip s.lex s.command).map (adopt .waitAddress)
        else .error .noRule
      | .waitAddress =>
        if s.command.cmd = cmdr then (handleAddr s.lex s.command).map (adopt .executing)
        else if s.command.cmd ∈ [cmdw, cmds] then (handleAddr s.lex s.command).map (adopt .waitValue)
        else .error .noRule
      | .waitValue =>
        if s.command.cmd ∈ [cmdw, cmds] then (handleValue s.lex s.command).map (adopt .executing)
        else .error .noRule
      | _ => .error .noRule

/-- The `EOL` events of R84 by R103, R105, R106: nothing in `Ready`; `V` runs in every other state; the five others run in
`Executing`; everything else is `NO_RULE`. -/
def Obligations.LineEvents : Prop :=
  ∀ s : State,
    lineEvent s =
      if s.st = .ready then .next s
      else if s.command.cmd = cmdV then exec .version s
      else if s.st = .executing then
        match s.command.live with
        | some i => exec i s
        | none => .next (s.raise .noRule .lf)
      else .next (s.raise .noRule .lf)

/-- 40_interpreter.md R106: a blank line is consumed with no response and no change of the block. -/
def Obligations.EmptyLineIgnored : Prop :=
  ∀ s : State, s.st = .ready → s.lex.inTok = false → s.discard = false → s.accepted = some asciiLF →
    step s = .next { s with
      host := { s.host with ports := s.host.ports.tail, rx := s.host.rx.tail }
      chip := s.chip.unchanged }

/-! ### The exception -/

/-- 60_exceptions.md R149: the error transition in the step of the byte that ends the bad event, in full; `term` is a
delimiter exactly when that byte is no LF. The engine, the outputs and the cells are not involved. -/
def Obligations.ErrorTransition : Prop :=
  ∀ (s : State) (c : Byte) (cause : Cause), s.st.reserved = false → s.discard = false → s.accepted = some c →
    s.byteCause c = some cause →
    ∃ t, step s = .next t ∧ t.errCause = cause ∧ t.busy = true ∧
      t.txq = s.txq ++ [0x0D#8, 0x0A#8, 0x45#8, 0x0D#8, 0x0A#8] ∧ t.st = .ready ∧ t.command = emptyCommand ∧
      t.lex = clearedLexer ∧ t.discard = decide (c ≠ asciiLF) ∧ t.eng = s.eng ∧ t.bus = s.bus ∧
      t.chip.cells = s.chip.cells ∧ t.host.rx = s.host.rx.tail

/-- 40_interpreter.md R113, the way out of an error: while `discard` = 1 a byte is consumed with no effect, and the LF ends
that. -/
def Obligations.DiscardToLineFeed : Prop :=
  ∀ (s : State) (c : Byte), s.discard = true → s.accepted = some c →
    step s = .next { s with
      discard := decide (c ≠ asciiLF)
      host := { s.host with ports := s.host.ports.tail, rx := s.host.rx.tail }
      chip := s.chip.unchanged }

/-! ### Steps and meanings -/

/-- A step runs the decoded instruction: the command whose line ends in this cycle, at the end of the line; and while the
engine runs, the live command; with the queue, the chip and the inputs moved after it (40_interpreter.md R95). -/
def Obligations.StepRunsCommand : Prop :=
  (∀ (s : State) (i : Instr), s.begins i →
    ∃ u, s.acceptByte.atLineEnd = .ok u ∧ step s = andThen (exec i u) (State.endStep s)) ∧
  (∀ (s : State) (i : Instr), s.portsNow.rst = false → s.eng.point ≠ .idle → s.command.live = some i →
    step s = andThen (exec i s) (State.endStep s))

/-- The model's reading of a table word (log 2): the instruction the decoder reads from it is the one that the very next
step runs. -/
def Obligations.FetchWordRuns : Prop :=
  ∀ (s : State) (nbits w : Nat) (i : Instr), decodeTableWord nbits w = some i →
    step (s.withFetchWord nbits w) =
      andThen (exec i (s.withFetchWord nbits w).acceptByte) (State.endStep (s.withFetchWord nbits w))

/-- 40_interpreter.md R111: with the engine idle, every command starts; nothing else changes. -/
def Obligations.CommandStarts : Prop :=
  ∀ (i : Instr) (s : State), s.eng.point = .idle →
    firstPoint i ≠ .idle ∧
    exec i s = .next
      { s with st := .executing, busy := true, errCause := .none, eng := { s.eng with point := firstPoint i } }

/-- 41_commands.md R115 (d) with the last line of R117, R118, R120, R122, R123, R124: at its last line every command queues
its payload, the end of its payload line and the success trailer, and is over: `Ready`, an empty Command register, the
engine idle. Nothing else changes. -/
def Obligations.CommandEnds : Prop :=
  ∀ (i : Instr) (s : State), s.eng.point = .respond → s.eng.tmr = 0#32 →
    exec i s = .next { s with
      st := .ready
      command := emptyCommand
      eng := { s.eng with point := .idle }
      txq := s.txq ++ (match i with
        | .version => Config.versionCode
        | .readAll chip => [0x0D#8, 0x0A#8] ++ hex3 (BitVec.ofNat 12 (cellCount chip))
        | .blankCheck _ => hex3 (s.eng.scanA.zeroExtend 12)
        | .readByte _ _ => hex2 s.eng.b
        | .program _ _ _ => hex2 s.eng.achieved
        | .simulate _ _ _ => hex2 s.eng.achieved) ++ [0x0D#8, 0x0A#8, 0x52#8, 0x0D#8, 0x0A#8] }

/-- Every line of every command has a next state, in every state of the block in which the engine runs it
(41_commands.md R115). -/
def Obligations.EveryLineRuns : Prop :=
  ∀ (i : Instr) (s : State), Inv s → s.command.live = some i → s.eng.point ≠ .idle →
    ∃ t, exec i s = .next t

/-- 42_programming_engine.md R127: `tmr` is loaded with `n - 1`, and while it counts down to 0, once a step, every output,
the line and every other register of the engine hold. -/
def Obligations.WaitCounts : Prop :=
  (∀ (n : Nat) (s : State), 1 ≤ n → n < 2 ^ 32 → (s.wait n).eng.tmr.toNat = n - 1) ∧
  (∀ (s : State) (k : Nat), Inv s → s.noReset → s.eng.point ≠ .idle → k ≤ s.eng.tmr.toNat →
    ∃ t, runs k s = .next t ∧ t.bus = s.bus ∧ t.chip.cells = s.chip.cells ∧ t.st = s.st ∧ t.command = s.command ∧
      t.host.rx = s.host.rx ∧ t.output = s.output ∧
      t.eng = { s.eng with tmr := BitVec.ofNat 32 (s.eng.tmr.toNat - k) })

/-! ### The six commands: from the end of the line to the response -/

/-- 41_commands.md R117: two cycles, no bus activity, the version code, `CR LF`, `R`, `CR LF`. -/
def Obligations.VersionResult : Prop :=
  Config.versionCode.length = 6 ∧
  ∀ s : State, s.begins .version →
    s.starts .version ∧
    (∃ t, runs 1 s = .next t ∧ t.bus = s.bus) ∧
    ∃ t, runs 2 s = .next t ∧ s.answered t (Config.versionCode ++ [0x0D#8, 0x0A#8, 0x52#8, 0x0D#8, 0x0A#8]) ∧
      t.bus = s.bus ∧ t.eng = s.eng ∧ t.chip.cells = s.chip.cells ∧ t.chip.draws = s.chip.draws

/-- 41_commands.md R122: the addressed cell as two digits; no cell changes; of the engine's registers only the local `b`,
of the outputs `chip_sel` and `abus`. That `b` is a register is the model's choice (log 11). -/
def Obligations.ReadByteResult : Prop :=
  ∀ (s : State) (chip : Profile) (addr : CellAddr), s.begins (.readByte chip addr) →
    s.chip.socket.matches chip = true →
    s.starts (.readByte chip addr) ∧
    ∃ n t, runs n s = .next t ∧
      s.answered t (hex2 (readCell s.chip.cells addr.toNat) ++ [0x0D#8, 0x0A#8, 0x52#8, 0x0D#8, 0x0A#8]) ∧
      t.eng = { s.eng with b := readCell s.chip.cells addr.toNat } ∧
      t.bus = { chipSel := chip, abus := addr, progSel := 0x00#8, supply := .off, en := false } ∧
      t.chip.cells = s.chip.cells ∧ t.chip.draws = s.chip.draws

/-- `r` with no chip, or a chip of the other profile, in the socket (20_memory.md R50, R61, which leave the byte open; the
model's form of it: log 8): the command completes, its payload a free byte, one draw. -/
def Obligations.ReadWithoutChip : Prop :=
  ∀ (s : State) (chip : Profile) (addr : CellAddr), s.begins (.readByte chip addr) →
    s.chip.socket.matches chip = false →
    s.starts (.readByte chip addr) ∧
    ∃ n t, runs n s = .next t ∧
      s.answered t (hex2 (Config.strayByte s.chip.draws) ++ [0x0D#8, 0x0A#8, 0x52#8, 0x0D#8, 0x0A#8]) ∧
      t.chip.cells = s.chip.cells ∧ t.chip.draws = s.chip.draws + 1

/-- 41_commands.md R118, R119: every cell below `CELLS(chip)` once, cell 0 first, two digits each, then the count line and
the status line. -/
def Obligations.ReadAllResult : Prop :=
  ∀ (s : State) (chip : Profile), s.begins (.readAll chip) → s.chip.socket.matches chip = true →
    s.starts (.readAll chip) ∧
    ∃ n t, runs n s = .next t ∧
      s.answered t
        ((List.range (cellCount chip)).flatMap (fun a => hex2 (readCell s.chip.cells a)) ++
          [0x0D#8, 0x0A#8] ++ hex3 (BitVec.ofNat 12 (cellCount chip)) ++ [0x0D#8, 0x0A#8, 0x52#8, 0x0D#8, 0x0A#8]) ∧
      t.eng = { s.eng with b := t.eng.b, scanA := t.eng.scanA } ∧
      t.bus = { chipSel := chip, abus := t.bus.abus, progSel := 0x00#8, supply := .off, en := false } ∧
      t.chip.cells = s.chip.cells ∧ t.chip.draws = s.chip.draws

/-- 41_commands.md R120, R121: three digits of the address at which the scan stopped, the least address of a cell that is
not blank, or `CELLS(chip)`. -/
def Obligations.BlankCheckResult : Prop :=
  ∀ (s : State) (chip : Profile), s.begins (.blankCheck chip) → s.chip.socket.matches chip = true →
    s.starts (.blankCheck chip) ∧
    ∃ n t stop, runs n s = .next t ∧
      stop ≤ cellCount chip ∧ (∀ a, a < stop → readCell s.chip.cells a = 0x00#8) ∧
      (stop < cellCount chip → readCell s.chip.cells stop ≠ 0x00#8) ∧
      s.answered t (hex3 (BitVec.ofNat 12 stop) ++ [0x0D#8, 0x0A#8, 0x52#8, 0x0D#8, 0x0A#8]) ∧
      t.eng = { s.eng with b := t.eng.b, scanA := BitVec.ofNat 10 stop } ∧
      t.bus = { chipSel := chip, abus := t.bus.abus, progSel := 0x00#8, supply := .off, en := false } ∧
      t.chip.cells = s.chip.cells ∧ t.chip.draws = s.chip.draws

/-- 41_commands.md R123 with 42_programming_engine.md R139 to R141: the achieved byte, which the addressed cell then holds;
no other cell changes; one draw for each pulse, the draws standing for the fuses (log 7); the registers the rule names, and
`ok`. -/
def Obligations.ProgramResult : Prop :=
  ∀ (s : State) (chip : Profile) (addr : CellAddr) (value : Byte), s.begins (.program chip addr value) →
    s.chip.socket.matches chip = true →
    s.starts (.program chip addr value) ∧
    ∃ n t, runs n s = .next t ∧
      let existing := readCell s.chip.cells addr.toNat
      let achieved := programmedByte existing value s.chip.draws
      s.answered t (hex2 achieved ++ [0x0D#8, 0x0A#8, 0x52#8, 0x0D#8, 0x0A#8]) ∧
      (∀ a, readCell t.chip.cells a = if a = addr.toNat then achieved else readCell s.chip.cells a) ∧
      t.chip.draws = s.chip.draws + pulseCount existing value s.chip.draws ∧
      t.eng = { s.eng with
        existing := existing
        target := value
        real := true
        achieved := achieved
        bit :=
          if existing = value then s.eng.bit
          else BitVec.ofNat 4 (min (impossibleAt existing value) (failsAt existing value s.chip.draws))
        ok := t.eng.ok } ∧
      t.bus = { chipSel := chip, abus := addr, progSel := 0x00#8, supply := .off, en := false }

/-- 41_commands.md R124 with R139, R140: the byte a write would give if every fuse blew; no cell changes and no pulse is
made. -/
def Obligations.SimulateResult : Prop :=
  ∀ (s : State) (chip : Profile) (addr : CellAddr) (value : Byte), s.begins (.simulate chip addr value) →
    s.chip.socket.matches chip = true →
    s.starts (.simulate chip addr value) ∧
    ∃ n t, runs n s = .next t ∧
      let existing := readCell s.chip.cells addr.toNat
      let achieved := simulatedByte existing value
      s.answered t (hex2 achieved ++ [0x0D#8, 0x0A#8, 0x52#8, 0x0D#8, 0x0A#8]) ∧
      t.chip.cells = s.chip.cells ∧ t.chip.draws = s.chip.draws ∧
      t.eng = { s.eng with
        existing := existing
        target := value
        real := false
        achieved := achieved
        bit := if existing = value then s.eng.bit else BitVec.ofNat 4 (impossibleAt existing value) } ∧
      t.bus = { chipSel := chip, abus := addr, progSel := 0x00#8, supply := .off, en := false }

/-- 42_programming_engine.md R141: the chip at the end of a real and of a simulated burn of a cell, the response with the
achieved byte being that of this command. -/
def Obligations.CellsAfterBurn : Prop :=
  (∀ (s : State) (chip : Profile) (addr : CellAddr) (value : Byte), s.begins (.program chip addr value) →
    s.chip.socket.matches chip = true →
    s.starts (.program chip addr value) ∧
    ∃ n t, runs n s = .next t ∧
      s.answered t (hex2 t.eng.achieved ++ [0x0D#8, 0x0A#8, 0x52#8, 0x0D#8, 0x0A#8]) ∧
      readCell t.chip.cells addr.toNat = t.eng.achieved ∧
      ∀ a, a ≠ addr.toNat → readCell t.chip.cells a = readCell s.chip.cells a) ∧
  (∀ (s : State) (chip : Profile) (addr : CellAddr) (value : Byte), s.begins (.simulate chip addr value) →
    s.chip.socket.matches chip = true →
    s.starts (.simulate chip addr value) ∧
    ∃ n t, runs n s = .next t ∧
      s.answered t (hex2 t.eng.achieved ++ [0x0D#8, 0x0A#8, 0x52#8, 0x0D#8, 0x0A#8]) ∧
      t.chip.cells = s.chip.cells)

/-- 20_memory.md R58: a write of the byte a cell already holds is a no-op: no cycle of it reaches the programming level,
nothing is drawn, and the achieved value is the existing one. -/
def Obligations.RepeatedWriteIsNoOp : Prop :=
  ∀ (s : State) (chip : Profile) (addr : CellAddr) (value : Byte), s.begins (.program chip addr value) →
    s.chip.socket.matches chip = true → readCell s.chip.cells addr.toNat = value →
    ∃ n t, runs n s = .next t ∧ s.answered t (hex2 value ++ [0x0D#8, 0x0A#8, 0x52#8, 0x0D#8, 0x0A#8]) ∧
      t.chip.cells = s.chip.cells ∧ t.chip.draws = s.chip.draws ∧
      ∀ k, k ≤ n → ∃ u, runs k s = .next u ∧ u.bus.supply ≠ .program ∧ u.bus.progSel = 0x00#8

/-- `R` and `K` with no chip, or a chip of the other profile, in the socket (20_memory.md R50, R61, which leave every byte
read open; the model's form of it: a free byte for each sample, one draw each, log 8): the commands complete as with a chip
(41_commands.md R118 to R121), over the bytes drawn, and no cell changes. -/
def Obligations.ScansWithoutChip : Prop :=
  (∀ (s : State) (chip : Profile), s.begins (.readAll chip) → s.chip.socket.matches chip = false →
    s.starts (.readAll chip) ∧
    ∃ n t, runs n s = .next t ∧
      s.answered t
        ((List.range (cellCount chip)).flatMap (fun a => hex2 (Config.strayByte (s.chip.draws + a))) ++
          [0x0D#8, 0x0A#8] ++ hex3 (BitVec.ofNat 12 (cellCount chip)) ++ [0x0D#8, 0x0A#8, 0x52#8, 0x0D#8, 0x0A#8]) ∧
      t.chip.cells = s.chip.cells ∧ t.chip.draws = s.chip.draws + cellCount chip) ∧
  (∀ (s : State) (chip : Profile), s.begins (.blankCheck chip) → s.chip.socket.matches chip = false →
    s.starts (.blankCheck chip) ∧
    ∃ n t stop, runs n s = .next t ∧
      stop ≤ cellCount chip ∧ (∀ a, a < stop → Config.strayByte (s.chip.draws + a) = 0x00#8) ∧
      (stop < cellCount chip → Config.strayByte (s.chip.draws + stop) ≠ 0x00#8) ∧
      s.answered t (hex3 (BitVec.ofNat 12 stop) ++ [0x0D#8, 0x0A#8, 0x52#8, 0x0D#8, 0x0A#8]) ∧
      t.chip.cells = s.chip.cells ∧ t.chip.draws = s.chip.draws + min (stop + 1) (cellCount chip))

/-- `s` and `w` with no chip, or a chip of the other profile, in the socket (20_memory.md R61), `existing` being the free
byte of one sample (log 8): `s` completes with the simulated byte of it, and so does `w` with `existing` where the algorithm
finds nothing to burn (42_programming_engine.md R140), no cell changing; where `w` comes to a pulse, whose effect R61 calls
unspecified, it stops there by name (log 17). -/
def Obligations.BurnsWithoutChip : Prop :=
  (∀ (s : State) (chip : Profile) (addr : CellAddr) (value : Byte), s.begins (.simulate chip addr value) →
    s.chip.socket.matches chip = false →
    s.starts (.simulate chip addr value) ∧
    ∃ n t, runs n s = .next t ∧
      s.answered t (hex2 (simulatedByte (Config.strayByte s.chip.draws) value) ++ [0x0D#8, 0x0A#8, 0x52#8, 0x0D#8, 0x0A#8]) ∧
      t.chip.cells = s.chip.cells ∧ t.chip.draws = s.chip.draws + 1) ∧
  (∀ (s : State) (chip : Profile) (addr : CellAddr) (value : Byte), s.begins (.program chip addr value) →
    s.chip.socket.matches chip = false →
    let existing := Config.strayByte s.chip.draws
    let pulses := burnableBits existing value &&& lowMask (impossibleAt existing value)
    s.starts (.program chip addr value) ∧
    if pulses = 0x00#8 then
      ∃ n t, runs n s = .next t ∧
        s.answered t (hex2 existing ++ [0x0D#8, 0x0A#8, 0x52#8, 0x0D#8, 0x0A#8]) ∧
        t.chip.cells = s.chip.cells ∧ t.chip.draws = s.chip.draws + 1
    else ∃ n, runs n s = .fault .programmingUnspecified)

/-- The consequences that 42_programming_engine.md R140 draws from the closed form, and that of 41_commands.md R124, for
every pair of bytes and every outcome of the fuses (the draws: log 7). -/
def Obligations.BurnConsequences : Prop :=
  ∀ (existing target : Byte) (d : Nat),
    programmedByte existing target d &&& existing = existing ∧
    simulatedByte existing target &&& existing = existing ∧
    programmedByte existing target d &&& ~~~(existing ||| target) = 0x00#8 ∧
    simulatedByte existing target &&& ~~~(existing ||| target) = 0x00#8 ∧
    (simulatedByte existing target = target ↔ impossibleBits existing target = 0x00#8) ∧
    (programmedByte existing target d = target ↔
      impossibleBits existing target = 0x00#8 ∧ failsAt existing target d = 8) ∧
    (existing = target → pulseCount existing target d = 0 ∧ programmedByte existing target d = existing) ∧
    (failsAt existing target d = 8 → programmedByte existing target d = simulatedByte existing target) ∧
    pulseCount existing target d ≤ 8

/-! ### Traces of the outputs -/

/-- 42_programming_engine.md R130 with R127, and 70_reset_and_hazards.md R175: the power sequence of the five commands that
reach the chip, cycle by cycle, up to the first enable. -/
def Obligations.PowerUpTrace : Prop :=
  ∀ (s : State) (i : Instr), Inv s → s.noReset → s.command.live = some i → s.eng.point = .selectChip →
    (∃ t, runs 1 s = .next t ∧
      t.bus = { chipSel := profileOf i, abus := 0#9, progSel := 0x00#8, supply := .off, en := false }) ∧
    (∀ k, 2 ≤ k → k ≤ Config.nPwrup + 1 → ∃ t, runs k s = .next t ∧
      t.bus = { chipSel := profileOf i, abus := 0#9, progSel := 0x00#8, supply := .nominal, en := false }) ∧
    ∃ t, runs (Config.nPwrup + 2) s = .next t ∧
      t.bus = { chipSel := profileOf i, abus := 0#9, progSel := 0x00#8, supply := .nominal, en := true }

/-- 42_programming_engine.md R135 with R127, hence 70_reset_and_hazards.md R169, R170, and 20_memory.md R51: the whole
programming sequence cycle by cycle, every delay exact, and what it does to the cells: nothing before its end, and then the
driven bit of the addressed cell set if the fuse of this draw blew (the draws: log 7), and nothing else. That the cell
changes at the release of the data line and in no cycle before it is the model's choice (log 16). -/
def Obligations.PulseTrace : Prop :=
  ∀ s : State, Inv s → s.noReset → s.eng.point = .burnRaise →
    s.bus.progSel = onehot8 s.eng.bit.toNat ∧ s.bus.supply = .nominal ∧ s.bus.en = false ∧
    Config.nPulseMin ≤ Config.nPulse ∧ Config.nPulse ≤ Config.nPulseMax ∧
    (∀ k, k ≤ Config.nSettle + Config.nPulse + 2 → ∃ t, runs k s = .next t ∧ t.bus = pulseBus s.bus k ∧
      t.chip.cells = s.chip.cells) ∧
    ∃ t, runs (Config.nSettle + Config.nPulse + 3) s = .next t ∧
      t.bus = pulseBus s.bus (Config.nSettle + Config.nPulse + 3) ∧
      t.chip.draws = s.chip.draws + 1 ∧
      ∀ a, readCell t.chip.cells a =
        if a = s.bus.abus.toNat ∧ Config.fuseBlows s.chip.draws = true then
          readCell s.chip.cells a ||| onehot8 s.eng.bit.toNat
        else readCell s.chip.cells a

/-- 42_programming_engine.md R134 and R136 with R127, and 70_reset_and_hazards.md R174: the verify read, cycle by cycle, its
bit, and the cooldown after it, in which nothing reaches the chip (`ok` as a register: log 11). -/
def Obligations.VerifyTrace : Prop :=
  ∀ s : State, Inv s → s.noReset → s.eng.point = .verifyEnable → s.chip.socket.matches s.bus.chipSel = true →
    s.bus.en = false ∧ s.bus.supply = .nominal ∧ s.bus.progSel = 0x00#8 ∧
    (∀ k, 1 ≤ k → k ≤ Config.nRead → ∃ t, runs k s = .next t ∧ t.bus = { s.bus with en := true }) ∧
    (∀ k, Config.nRead + 1 ≤ k → k ≤ Config.nRead + Config.nCool → ∃ t, runs k s = .next t ∧ t.bus = s.bus ∧
      t.chip.cells = s.chip.cells ∧ t.eng.point = .verifyTest ∧
      t.eng.ok = (readCell s.chip.cells s.bus.abus.toNat).getLsbD s.eng.bit.toNat ∧
      t.eng.tmr.toNat = Config.nRead + Config.nCool - k)

/-- 20_memory.md R50, 42_programming_engine.md R132, R134, 70_reset_and_hazards.md R175: every sample the engine takes
meets the read conditions, and is the addressed cell. How `held` counts the cycles of unchanged outputs that R50 asks for is
the model's choice (log 18). -/
def Obligations.SamplesAreGood : Prop :=
  ∀ s : State, Inv s → s.eng.point = .readSample ∨ s.eng.point = .verifySample → s.eng.tmr = 0#32 →
    s.chip.socket.matches s.bus.chipSel = true →
    s.bus.supply = .nominal ∧ s.bus.en = true ∧ s.bus.progSel = 0x00#8 ∧ Config.nRead ≤ s.chip.held ∧
    s.chip.answer s.bus = .ok (readCell s.chip.cells s.bus.abus.toNat, s.chip)

/-! ### Electrical hazards, step by step -/

/-- 70_reset_and_hazards.md R171: how `supply` moves, and that the programming level belongs to `w` alone. -/
def Obligations.SupplyOrder : Prop :=
  (∀ s : State, Inv s → s.bus.supply = .program →
    ∃ chip addr value, s.command.live = some (.program chip addr value) ∧
      s.eng.point ∈ [.burnEnable, .burnDisable, .burnDrop] ∧ s.bus.progSel = onehot8 s.eng.bit.toNat ∧ s.eng.bit.toNat < 8) ∧
  (∀ s t : State, Inv s → step s = .next t →
    (s.portsNow.rst = true → t.bus.supply = .off) ∧
    (s.portsNow.rst = false →
      (s.bus.supply = .program → t.bus.supply ≠ .program → t.bus.supply = .nominal ∧ s.bus.en = false) ∧
      (t.bus.supply = .program → s.bus.supply ≠ .program →
        s.bus.supply = .nominal ∧ s.bus.en = false ∧ isOnehot s.bus.progSel = true ∧ t.bus.progSel = s.bus.progSel) ∧
      (t.bus.supply = .off → s.bus.supply ≠ .off → s.bus.en = false ∧ s.bus.progSel = 0x00#8)))

/-- 70_reset_and_hazards.md R172, with no reset in the step: no two data lines at once, and no change of them while the
chip is enabled or at the programming level. -/
def Obligations.DataLines : Prop :=
  (∀ s : State, Inv s →
    s.bus.progSel = 0x00#8 ∨ (s.eng.bit.toNat < 8 ∧ s.bus.progSel = onehot8 s.eng.bit.toNat)) ∧
  (∀ s t : State, Inv s → s.portsNow.rst = false → step s = .next t → t.bus.progSel ≠ s.bus.progSel →
    s.bus.en = false ∧ s.bus.supply ≠ .program ∧ t.bus.en = false ∧ t.bus.supply ≠ .program)

/-- 70_reset_and_hazards.md R173, with no reset in the step. In `r`, `w` and `s` no line but the first one of `PowerUp` and
the address line of the one read of `existing` changes the address or the profile, from there to the end of the command,
and at every line that works on the byte the command's cell stands on the bus. In a scan no line but the first one of
`PowerUp` changes the profile, and the address changes from then on only where a loop head starts the next read: with no
read waiting, at the nominal level, no line driven. -/
def Obligations.AddressStable : Prop :=
  ∀ (s t : State) (i : Instr), Inv s → s.portsNow.rst = false → s.command.live = some i → s.eng.point ≠ .idle →
    step s = .next t →
    (scans i = false →
      (s.eng.point ≠ .selectChip → s.eng.point ≠ .readAddr →
        t.bus.abus = s.bus.abus ∧ t.bus.chipSel = s.bus.chipSel) ∧
      (i ≠ .version → s.eng.point.addressSet = true →
        s.bus.abus = cellOf i s.eng.scanA ∧ s.bus.chipSel = profileOf i)) ∧
    (scans i = true → s.eng.point ≠ .selectChip →
      t.bus.chipSel = s.bus.chipSel ∧
      (t.bus.abus ≠ s.bus.abus →
        s.eng.point ∈ [.scanFirst, .scanNext, .blankLoop] ∧ s.eng.tmr = 0#32 ∧ t.eng.point = .readSample ∧
        s.bus.supply = .nominal ∧ s.bus.progSel = 0x00#8))

/-- 20_memory.md R64: bytes go out only with the chip off, `en` = 0 and no line driven, but for the data bytes of `R`. -/
def Obligations.ResponseAfterPowerDown : Prop :=
  ∀ s t : State, Inv s → s.portsNow.rst = false → s.eng.point ≠ .idle → step s = .next t → t.output ≠ s.output →
    (s.bus.supply = .off ∧ s.bus.en = false ∧ s.bus.progSel = 0x00#8 ∧ t.eng.point = .idle) ∨
    (∃ chip, s.command.live = some (.readAll chip) ∧ s.eng.point = .scanEmit)

/-! ### The cells -/

/-- 20_memory.md R51, R57, R67, with no reset in the step: a cell changes only at the end of a programming sequence of `w`,
only the addressed one, and only in the driven bit, which is then set if the fuse of this draw blew (log 7). That the change
comes in the cycle of the release of the data line is the model's choice, R51 giving no cycle for it (log 16). -/
def Obligations.CellsOnlyByPulse : Prop :=
  ∀ s t : State, Inv s → s.portsNow.rst = false → step s = .next t →
    (s.eng.point ≠ .burnRelease → t.chip.cells = s.chip.cells) ∧
    (∀ a, a ≠ s.bus.abus.toNat → readCell t.chip.cells a = readCell s.chip.cells a) ∧
    (s.eng.point = .burnRelease →
      (∃ chip addr value, s.command.live = some (.program chip addr value) ∧ s.bus.abus = addr) ∧
      readCell t.chip.cells s.bus.abus.toNat =
        if Config.fuseBlows s.chip.draws = true then
          readCell s.chip.cells s.bus.abus.toNat ||| onehot8 s.eng.bit.toNat
        else readCell s.chip.cells s.bus.abus.toNat)

/-- 20_memory.md R49: fuses are one-directional, in every step and over every run, resets among the steps or not. -/
def Obligations.FusesAreOneWay : Prop :=
  blankByte = 0x00#8 ∧
  ∀ (n : Nat) (s t : State), s.chip.cells.wf = true → runs n s = .next t →
    ∀ a, readCell t.chip.cells a &&& readCell s.chip.cells a = readCell s.chip.cells a

/-- 20_memory.md R61, 93_implementation_defined.md I9 (the model's form: log 8, log 17): a sample from a socket with no chip
or with a chip of the other profile is a free byte, and a programming sequence there stops the machine by name. -/
def Obligations.EmptySocket : Prop :=
  ∀ (c : Chip) (old new : Bus), c.socket.matches new.chipSel = false →
    c.answer new = .ok (Config.strayByte c.draws, { c with draws := c.draws + 1 }) ∧
    (c.stage = .quiet → addrInRange new.chipSel new.abus = true → drivesLine old new = true →
      c.observe old new = .error .programmingUnspecified)

/-! ### Frames -/

/-- What one clock step of `V`, `R`, `K` and `r` leaves alone: the burn registers, the lexer, `discard`, both streams, the
cells and the chip's programming stage; `V` touches no output, `r` no scan counter; none raises the supply to the
programming level or drives a line; `st` and the Command register stay or the command ends; bytes are only appended to the queue. -/
def Obligations.FrameOfReads : Prop :=
  ∀ (i : Instr) (s t : State), i = .version ∨ (∃ chip, i = .readAll chip) ∨ (∃ chip, i = .blankCheck chip) ∨
      (∃ chip addr, i = .readByte chip addr) →
    exec i s = .next t →
    t.chip.cells = s.chip.cells ∧ t.chip.stage = s.chip.stage ∧ t.chip.socket = s.chip.socket ∧ t.host = s.host ∧
    t.lex = s.lex ∧ t.discard = s.discard ∧ t.eng.existing = s.eng.existing ∧ t.eng.target = s.eng.target ∧
    t.eng.achieved = s.eng.achieved ∧ t.eng.bit = s.eng.bit ∧ t.eng.real = s.eng.real ∧ t.eng.ok = s.eng.ok ∧
    (i = .version → t.bus = s.bus ∧ t.eng.b = s.eng.b) ∧ (scans i = false → t.eng.scanA = s.eng.scanA) ∧
    (t.bus.supply = .program → s.bus.supply = .program) ∧
    (t.bus.progSel = s.bus.progSel ∨ t.bus.progSel = 0x00#8) ∧
    (s.eng.point ≠ .idle → t.errCause = s.errCause ∧ t.busy = s.busy ∧
      ((t.st = s.st ∧ t.command = s.command) ∨ (t.st = .ready ∧ t.command = emptyCommand))) ∧
    ∃ new, t.txq = s.txq ++ new

/-- What one clock step of `w` and `s` leaves alone: the lexer, `discard`, both streams, the scan registers, and each other
register of the burn, the selection, the data lines and the programming level at every line but those that write it. The
cells change, if at all, when the chip sees the outputs (`CellsOnlyByPulse`). -/
def Obligations.FrameOfBurns : Prop :=
  ∀ (i : Instr) (s t : State),
    (∃ chip addr value, i = .program chip addr value) ∨ (∃ chip addr value, i = .simulate chip addr value) →
    exec i s = .next t →
    t.chip.cells = s.chip.cells ∧ t.chip.stage = s.chip.stage ∧ t.chip.socket = s.chip.socket ∧ t.host = s.host ∧
    t.lex = s.lex ∧ t.discard = s.discard ∧ t.eng.b = s.eng.b ∧ t.eng.scanA = s.eng.scanA ∧
    (s.eng.point ≠ .readSample → t.eng.existing = s.eng.existing) ∧
    (s.eng.point ≠ .setTarget → t.eng.target = s.eng.target ∧ t.eng.real = s.eng.real) ∧
    (s.eng.point ≠ .verifySample → t.eng.ok = s.eng.ok) ∧
    (s.eng.point ∉ [.copyExisting, .burnTest, .verifyTest, .bitNext] → t.eng.achieved = s.eng.achieved) ∧
    (s.eng.point ∉ [.burnTest, .bitNext] → t.eng.bit = s.eng.bit) ∧
    (s.eng.point ∉ [.selectChip, .burnTest, .burnRelease, .verifyTest, .bitNext] → t.bus.progSel = s.bus.progSel) ∧
    (s.eng.point ≠ .selectChip → t.bus.chipSel = s.bus.chipSel ∧
      (s.eng.point ≠ .readAddr → t.bus.abus = s.bus.abus)) ∧
    (t.bus.supply = .program → s.bus.supply = .program ∨ s.eng.point = .burnRaise) ∧
    (s.eng.point ≠ .idle → t.errCause = s.errCause ∧ t.busy = s.busy ∧
      ((t.st = s.st ∧ t.command = s.command) ∨ (t.st = .ready ∧ t.command = emptyCommand))) ∧
    ∃ new, t.txq = s.txq ++ new

/-- What a step with the engine idle and no reset leaves alone: the outputs, the cells, and the engine, but for the start
of a command (60_exceptions.md R146, R149, R151). -/
def Obligations.FrameOfByteSteps : Prop :=
  ∀ s t : State, s.eng.point = .idle → s.portsNow.rst = false → step s = .next t →
    t.bus = s.bus ∧ t.chip.cells = s.chip.cells ∧ t.chip.socket = s.chip.socket ∧
    t.eng = { s.eng with point := t.eng.point } ∧
    (s.accepted = none → t.st = s.st ∧ t.command = s.command ∧ t.lex = s.lex ∧ t.discard = s.discard ∧
      t.errCause = s.errCause ∧ t.eng = s.eng)

/-! ### Whole requests -/

/-- A request of the grammar, read byte by byte from the stream, starts its command at its LF and is answered by its one
response, in full (30_encoding.md R83); the next line is then awaited, and the cells are as R141 says. The free values of
the fuses are those of log 7. That the run comes to the next line rests on the model's levels past its finite list, a host
that offers and takes (log 3); 60_exceptions.md R161 lets the host be as slow as it likes. -/
def Obligations.RequestAnswered : Prop :=
  ∀ (s : State) (i : Instr) (rest : List Byte), s.awaitsLine → decode s.host.rx = .request i rest →
    (i ≠ .version → s.chip.socket.matches (profileOf i) = true) →
    ∃ n t, runs n s = .next t ∧ t.awaitsLine ∧ t.host.rx = rest ∧ t.errCause = .none ∧
      t.output = s.output ++ responseOf i s.chip.cells s.chip.draws ∧
      ∀ a, readCell t.chip.cells a = cellAfter i s.chip.cells s.chip.draws a

/-- A malformed line of any shape gets the one error response and its first cause, touches no output, no engine register
and no cell, and the next line is then awaited (40_interpreter.md R113, 60_exceptions.md R146, R148 (b), R149 to R152). That
the whole line is read and the response drained rests on the model's levels past its finite list, a host that offers and
takes (log 3); R161 lets the host be as slow as it likes. -/
def Obligations.MalformedAnswered : Prop :=
  ∀ (s : State) (cause : Cause) (rest : List Byte), s.awaitsLine → decode s.host.rx = .malformed cause rest →
    ∃ n t, runs n s = .next t ∧ t.awaitsLine ∧ t.host.rx = rest ∧ t.errCause = cause ∧
      t.output = s.output ++ [0x0D#8, 0x0A#8, 0x45#8, 0x0D#8, 0x0A#8] ∧
      t.bus = s.bus ∧ t.eng = s.eng ∧ t.chip.cells = s.chip.cells

/-- A line with no token is leading whitespace, however long: no response (30_encoding.md R72, 40_interpreter.md R106). That
the whole line is read rests on the model's levels past its finite list, a host that offers (log 3). -/
def Obligations.BlankLineSkipped : Prop :=
  ∀ (s : State) (rest : List Byte), s.awaitsLine → decode s.host.rx = .emptyLine rest →
    ∃ n t, runs n s = .next t ∧ t.awaitsLine ∧ t.host.rx = rest ∧ t.errCause = s.errCause ∧
      t.output = s.output ∧ t.bus = s.bus ∧ t.eng = s.eng ∧ t.chip.cells = s.chip.cells

/-! ### The invariant, and that the block never stops -/

/-- The invariant holds at reset. -/
def Obligations.InvAtReset : Prop := Inv State.reset

/-- Every step keeps the invariant of the block's states (10_state.md R26, R30, R31, R35, R38, 20_memory.md R60,
70_reset_and_hazards.md R172). -/
def Obligations.StepKeepsInv : Prop :=
  ∀ s t : State, Inv s → step s = .next t → Inv t

/-- With a chip of the selected profile in the socket, no state of the block, on any input and any number of cycles later,
stops with a fault or a refusal (60_exceptions.md R152). -/
def Obligations.NeverStops : Prop :=
  ∀ (n : Nat) (s : State), Inv s → s.chip.socket = .matching →
    ∃ t, runs n s = .next t ∧ t.chip.socket = .matching

/-- Whatever stands in the socket, a state of the block goes on, but for the one stop that 20_memory.md R61 leaves open (its
form: log 17): `w` is live, comes to a pulse, and the socket holds no chip of its profile. So an empty socket or a chip of
the other profile stops no other command, and a chip of one profile no command of that profile, on any input and any number
of cycles later (60_exceptions.md R152). -/
def Obligations.StopsOnlyWithoutChip : Prop :=
  (∀ s : State, Inv s →
    (∃ t, step s = .next t ∧ t.chip.socket = s.chip.socket) ∨
    (step s = .fault .programmingUnspecified ∧ s.chip.socket.matches s.bus.chipSel = false ∧
      s.eng.point ∈ [.burnTest, .bitNext] ∧
      ∃ addr value, s.command.live = some (.program s.bus.chipSel addr value))) ∧
  (∀ (n : Nat) (s : State), Inv s →
    (∃ t, runs n s = .next t ∧ t.chip.socket = s.chip.socket) ∨
    (runs n s = .fault .programmingUnspecified ∧
      ∃ k u chip addr value, k < n ∧ runs k s = .next u ∧ step u = .fault .programmingUnspecified ∧
        u.command.live = some (.program chip addr value) ∧ s.chip.socket.matches chip = false))

/-- The reserved encodings of `st` are no states of the block, and an event in one is stuck (10_state.md R31,
93_implementation_defined.md I11; log 15). -/
def Obligations.ReservedStateStops : Prop :=
  (∀ s : State, Inv s → s.st ≠ .waitTestNumber ∧ s.st ≠ .waitTestParams) ∧
  (∀ (s : State) (c : Byte), s.st = .waitTestNumber ∨ s.st = .waitTestParams → s.discard = false →
    s.accepted = some c → classOf c = .delim ∨ classOf c = .lf → step s = .fault .reservedProtocolState)

end
end

