-- ==== Sys2Proof/Laws/State.lean ====
section
/-! SUPPORT. One lemma for each field and each update of the state: what the update makes of the field. All are true by
definition and tagged for `simp`, so that no proof unfolds a record update. -/

namespace Sys2Proof.Machine

variable (s : State)

/-! ### `State.emit` -/

@[simp] theorem State.emit_st (bytes : List Byte) : (s.emit bytes).st = s.st := rfl
@[simp] theorem State.emit_command (bytes : List Byte) : (s.emit bytes).command = s.command := rfl
@[simp] theorem State.emit_lex (bytes : List Byte) : (s.emit bytes).lex = s.lex := rfl
@[simp] theorem State.emit_discard (bytes : List Byte) : (s.emit bytes).discard = s.discard := rfl
@[simp] theorem State.emit_busy (bytes : List Byte) : (s.emit bytes).busy = s.busy := rfl
@[simp] theorem State.emit_errCause (bytes : List Byte) : (s.emit bytes).errCause = s.errCause := rfl
@[simp] theorem State.emit_eng (bytes : List Byte) : (s.emit bytes).eng = s.eng := rfl
@[simp] theorem State.emit_bus (bytes : List Byte) : (s.emit bytes).bus = s.bus := rfl
@[simp] theorem State.emit_txq (bytes : List Byte) : (s.emit bytes).txq = s.txq ++ bytes := rfl
@[simp] theorem State.emit_host (bytes : List Byte) : (s.emit bytes).host = s.host := rfl
@[simp] theorem State.emit_chip (bytes : List Byte) : (s.emit bytes).chip = s.chip := rfl

/-! ### `State.acceptByte` -/

@[simp] theorem State.acceptByte_st : s.acceptByte.st = s.st := rfl
@[simp] theorem State.acceptByte_command : s.acceptByte.command = s.command := rfl
@[simp] theorem State.acceptByte_lex : s.acceptByte.lex = s.lex := rfl
@[simp] theorem State.acceptByte_discard : s.acceptByte.discard = s.discard := rfl
@[simp] theorem State.acceptByte_busy : s.acceptByte.busy = s.busy := rfl
@[simp] theorem State.acceptByte_errCause : s.acceptByte.errCause = s.errCause := rfl
@[simp] theorem State.acceptByte_eng : s.acceptByte.eng = s.eng := rfl
@[simp] theorem State.acceptByte_bus : s.acceptByte.bus = s.bus := rfl
@[simp] theorem State.acceptByte_txq : s.acceptByte.txq = s.txq := rfl
@[simp] theorem State.acceptByte_host_ports : s.acceptByte.host.ports = s.host.ports := rfl
@[simp] theorem State.acceptByte_host_rx : s.acceptByte.host.rx = s.host.rx.tail := rfl
@[simp] theorem State.acceptByte_host_taken : s.acceptByte.host.taken = s.host.taken := rfl
@[simp] theorem State.acceptByte_chip : s.acceptByte.chip = s.chip := rfl

/-! ### `State.nextPorts` -/

@[simp] theorem State.nextPorts_st : s.nextPorts.st = s.st := rfl
@[simp] theorem State.nextPorts_command : s.nextPorts.command = s.command := rfl
@[simp] theorem State.nextPorts_lex : s.nextPorts.lex = s.lex := rfl
@[simp] theorem State.nextPorts_discard : s.nextPorts.discard = s.discard := rfl
@[simp] theorem State.nextPorts_busy : s.nextPorts.busy = s.busy := rfl
@[simp] theorem State.nextPorts_errCause : s.nextPorts.errCause = s.errCause := rfl
@[simp] theorem State.nextPorts_eng : s.nextPorts.eng = s.eng := rfl
@[simp] theorem State.nextPorts_bus : s.nextPorts.bus = s.bus := rfl
@[simp] theorem State.nextPorts_txq : s.nextPorts.txq = s.txq := rfl
@[simp] theorem State.nextPorts_host_ports : s.nextPorts.host.ports = s.host.ports.tail := rfl
@[simp] theorem State.nextPorts_host_rx : s.nextPorts.host.rx = s.host.rx := rfl
@[simp] theorem State.nextPorts_host_taken : s.nextPorts.host.taken = s.host.taken := rfl
@[simp] theorem State.nextPorts_chip : s.nextPorts.chip = s.chip := rfl

/-! ### `State.takeTx` -/

@[simp] theorem State.takeTx_st : s.takeTx.st = s.st := rfl
@[simp] theorem State.takeTx_command : s.takeTx.command = s.command := rfl
@[simp] theorem State.takeTx_lex : s.takeTx.lex = s.lex := rfl
@[simp] theorem State.takeTx_discard : s.takeTx.discard = s.discard := rfl
@[simp] theorem State.takeTx_busy : s.takeTx.busy = s.busy := rfl
@[simp] theorem State.takeTx_errCause : s.takeTx.errCause = s.errCause := rfl
@[simp] theorem State.takeTx_eng : s.takeTx.eng = s.eng := rfl
@[simp] theorem State.takeTx_bus : s.takeTx.bus = s.bus := rfl
@[simp] theorem State.takeTx_txq : s.takeTx.txq = s.txq.tail := rfl
@[simp] theorem State.takeTx_host_ports : s.takeTx.host.ports = s.host.ports := rfl
@[simp] theorem State.takeTx_host_rx : s.takeTx.host.rx = s.host.rx := rfl
@[simp] theorem State.takeTx_host_taken : s.takeTx.host.taken = s.host.taken ++ s.txq.head?.toList := rfl
@[simp] theorem State.takeTx_chip : s.takeTx.chip = s.chip := rfl

/-! ### `State.goto` -/

@[simp] theorem State.goto_st (p : Point) : (s.goto p).st = s.st := rfl
@[simp] theorem State.goto_command (p : Point) : (s.goto p).command = s.command := rfl
@[simp] theorem State.goto_lex (p : Point) : (s.goto p).lex = s.lex := rfl
@[simp] theorem State.goto_discard (p : Point) : (s.goto p).discard = s.discard := rfl
@[simp] theorem State.goto_busy (p : Point) : (s.goto p).busy = s.busy := rfl
@[simp] theorem State.goto_errCause (p : Point) : (s.goto p).errCause = s.errCause := rfl
@[simp] theorem State.goto_eng_point (p : Point) : (s.goto p).eng.point = p := rfl
@[simp] theorem State.goto_eng_existing (p : Point) : (s.goto p).eng.existing = s.eng.existing := rfl
@[simp] theorem State.goto_eng_target (p : Point) : (s.goto p).eng.target = s.eng.target := rfl
@[simp] theorem State.goto_eng_achieved (p : Point) : (s.goto p).eng.achieved = s.eng.achieved := rfl
@[simp] theorem State.goto_eng_bit (p : Point) : (s.goto p).eng.bit = s.eng.bit := rfl
@[simp] theorem State.goto_eng_real (p : Point) : (s.goto p).eng.real = s.eng.real := rfl
@[simp] theorem State.goto_eng_scanA (p : Point) : (s.goto p).eng.scanA = s.eng.scanA := rfl
@[simp] theorem State.goto_eng_tmr (p : Point) : (s.goto p).eng.tmr = s.eng.tmr := rfl
@[simp] theorem State.goto_eng_b (p : Point) : (s.goto p).eng.b = s.eng.b := rfl
@[simp] theorem State.goto_eng_ok (p : Point) : (s.goto p).eng.ok = s.eng.ok := rfl
@[simp] theorem State.goto_bus (p : Point) : (s.goto p).bus = s.bus := rfl
@[simp] theorem State.goto_txq (p : Point) : (s.goto p).txq = s.txq := rfl
@[simp] theorem State.goto_host (p : Point) : (s.goto p).host = s.host := rfl
@[simp] theorem State.goto_chip (p : Point) : (s.goto p).chip = s.chip := rfl

/-! ### `State.wait` -/

@[simp] theorem State.wait_st (n : Nat) : (s.wait n).st = s.st := rfl
@[simp] theorem State.wait_command (n : Nat) : (s.wait n).command = s.command := rfl
@[simp] theorem State.wait_lex (n : Nat) : (s.wait n).lex = s.lex := rfl
@[simp] theorem State.wait_discard (n : Nat) : (s.wait n).discard = s.discard := rfl
@[simp] theorem State.wait_busy (n : Nat) : (s.wait n).busy = s.busy := rfl
@[simp] theorem State.wait_errCause (n : Nat) : (s.wait n).errCause = s.errCause := rfl
@[simp] theorem State.wait_eng_point (n : Nat) : (s.wait n).eng.point = s.eng.point := rfl
@[simp] theorem State.wait_eng_existing (n : Nat) : (s.wait n).eng.existing = s.eng.existing := rfl
@[simp] theorem State.wait_eng_target (n : Nat) : (s.wait n).eng.target = s.eng.target := rfl
@[simp] theorem State.wait_eng_achieved (n : Nat) : (s.wait n).eng.achieved = s.eng.achieved := rfl
@[simp] theorem State.wait_eng_bit (n : Nat) : (s.wait n).eng.bit = s.eng.bit := rfl
@[simp] theorem State.wait_eng_real (n : Nat) : (s.wait n).eng.real = s.eng.real := rfl
@[simp] theorem State.wait_eng_scanA (n : Nat) : (s.wait n).eng.scanA = s.eng.scanA := rfl
@[simp] theorem State.wait_eng_tmr (n : Nat) : (s.wait n).eng.tmr = BitVec.ofNat 32 (n - 1) := rfl
@[simp] theorem State.wait_eng_b (n : Nat) : (s.wait n).eng.b = s.eng.b := rfl
@[simp] theorem State.wait_eng_ok (n : Nat) : (s.wait n).eng.ok = s.eng.ok := rfl
@[simp] theorem State.wait_bus (n : Nat) : (s.wait n).bus = s.bus := rfl
@[simp] theorem State.wait_txq (n : Nat) : (s.wait n).txq = s.txq := rfl
@[simp] theorem State.wait_host (n : Nat) : (s.wait n).host = s.host := rfl
@[simp] theorem State.wait_chip (n : Nat) : (s.wait n).chip = s.chip := rfl

/-! ### `State.tick` -/

@[simp] theorem State.tick_st : s.tick.st = s.st := rfl
@[simp] theorem State.tick_command : s.tick.command = s.command := rfl
@[simp] theorem State.tick_lex : s.tick.lex = s.lex := rfl
@[simp] theorem State.tick_discard : s.tick.discard = s.discard := rfl
@[simp] theorem State.tick_busy : s.tick.busy = s.busy := rfl
@[simp] theorem State.tick_errCause : s.tick.errCause = s.errCause := rfl
@[simp] theorem State.tick_eng_point : s.tick.eng.point = s.eng.point := rfl
@[simp] theorem State.tick_eng_existing : s.tick.eng.existing = s.eng.existing := rfl
@[simp] theorem State.tick_eng_target : s.tick.eng.target = s.eng.target := rfl
@[simp] theorem State.tick_eng_achieved : s.tick.eng.achieved = s.eng.achieved := rfl
@[simp] theorem State.tick_eng_bit : s.tick.eng.bit = s.eng.bit := rfl
@[simp] theorem State.tick_eng_real : s.tick.eng.real = s.eng.real := rfl
@[simp] theorem State.tick_eng_scanA : s.tick.eng.scanA = s.eng.scanA := rfl
@[simp] theorem State.tick_eng_tmr : s.tick.eng.tmr = s.eng.tmr - 1#32 := rfl
@[simp] theorem State.tick_eng_b : s.tick.eng.b = s.eng.b := rfl
@[simp] theorem State.tick_eng_ok : s.tick.eng.ok = s.eng.ok := rfl
@[simp] theorem State.tick_bus : s.tick.bus = s.bus := rfl
@[simp] theorem State.tick_txq : s.tick.txq = s.txq := rfl
@[simp] theorem State.tick_host : s.tick.host = s.host := rfl
@[simp] theorem State.tick_chip : s.tick.chip = s.chip := rfl

/-! ### `State.setEn` -/

@[simp] theorem State.setEn_st (v : Bool) : (s.setEn v).st = s.st := rfl
@[simp] theorem State.setEn_command (v : Bool) : (s.setEn v).command = s.command := rfl
@[simp] theorem State.setEn_lex (v : Bool) : (s.setEn v).lex = s.lex := rfl
@[simp] theorem State.setEn_discard (v : Bool) : (s.setEn v).discard = s.discard := rfl
@[simp] theorem State.setEn_busy (v : Bool) : (s.setEn v).busy = s.busy := rfl
@[simp] theorem State.setEn_errCause (v : Bool) : (s.setEn v).errCause = s.errCause := rfl
@[simp] theorem State.setEn_eng (v : Bool) : (s.setEn v).eng = s.eng := rfl
@[simp] theorem State.setEn_bus_chipSel (v : Bool) : (s.setEn v).bus.chipSel = s.bus.chipSel := rfl
@[simp] theorem State.setEn_bus_abus (v : Bool) : (s.setEn v).bus.abus = s.bus.abus := rfl
@[simp] theorem State.setEn_bus_progSel (v : Bool) : (s.setEn v).bus.progSel = s.bus.progSel := rfl
@[simp] theorem State.setEn_bus_supply (v : Bool) : (s.setEn v).bus.supply = s.bus.supply := rfl
@[simp] theorem State.setEn_bus_en (v : Bool) : (s.setEn v).bus.en = v := rfl
@[simp] theorem State.setEn_txq (v : Bool) : (s.setEn v).txq = s.txq := rfl
@[simp] theorem State.setEn_host (v : Bool) : (s.setEn v).host = s.host := rfl
@[simp] theorem State.setEn_chip (v : Bool) : (s.setEn v).chip = s.chip := rfl

/-! ### `State.setSupply` -/

@[simp] theorem State.setSupply_st (v : Supply) : (s.setSupply v).st = s.st := rfl
@[simp] theorem State.setSupply_command (v : Supply) : (s.setSupply v).command = s.command := rfl
@[simp] theorem State.setSupply_lex (v : Supply) : (s.setSupply v).lex = s.lex := rfl
@[simp] theorem State.setSupply_discard (v : Supply) : (s.setSupply v).discard = s.discard := rfl
@[simp] theorem State.setSupply_busy (v : Supply) : (s.setSupply v).busy = s.busy := rfl
@[simp] theorem State.setSupply_errCause (v : Supply) : (s.setSupply v).errCause = s.errCause := rfl
@[simp] theorem State.setSupply_eng (v : Supply) : (s.setSupply v).eng = s.eng := rfl
@[simp] theorem State.setSupply_bus_chipSel (v : Supply) : (s.setSupply v).bus.chipSel = s.bus.chipSel := rfl
@[simp] theorem State.setSupply_bus_abus (v : Supply) : (s.setSupply v).bus.abus = s.bus.abus := rfl
@[simp] theorem State.setSupply_bus_progSel (v : Supply) : (s.setSupply v).bus.progSel = s.bus.progSel := rfl
@[simp] theorem State.setSupply_bus_supply (v : Supply) : (s.setSupply v).bus.supply = v := rfl
@[simp] theorem State.setSupply_bus_en (v : Supply) : (s.setSupply v).bus.en = s.bus.en := rfl
@[simp] theorem State.setSupply_txq (v : Supply) : (s.setSupply v).txq = s.txq := rfl
@[simp] theorem State.setSupply_host (v : Supply) : (s.setSupply v).host = s.host := rfl
@[simp] theorem State.setSupply_chip (v : Supply) : (s.setSupply v).chip = s.chip := rfl

/-! ### `State.setProgSel` -/

@[simp] theorem State.setProgSel_st (v : Byte) : (s.setProgSel v).st = s.st := rfl
@[simp] theorem State.setProgSel_command (v : Byte) : (s.setProgSel v).command = s.command := rfl
@[simp] theorem State.setProgSel_lex (v : Byte) : (s.setProgSel v).lex = s.lex := rfl
@[simp] theorem State.setProgSel_discard (v : Byte) : (s.setProgSel v).discard = s.discard := rfl
@[simp] theorem State.setProgSel_busy (v : Byte) : (s.setProgSel v).busy = s.busy := rfl
@[simp] theorem State.setProgSel_errCause (v : Byte) : (s.setProgSel v).errCause = s.errCause := rfl
@[simp] theorem State.setProgSel_eng (v : Byte) : (s.setProgSel v).eng = s.eng := rfl
@[simp] theorem State.setProgSel_bus_chipSel (v : Byte) : (s.setProgSel v).bus.chipSel = s.bus.chipSel := rfl
@[simp] theorem State.setProgSel_bus_abus (v : Byte) : (s.setProgSel v).bus.abus = s.bus.abus := rfl
@[simp] theorem State.setProgSel_bus_progSel (v : Byte) : (s.setProgSel v).bus.progSel = v := rfl
@[simp] theorem State.setProgSel_bus_supply (v : Byte) : (s.setProgSel v).bus.supply = s.bus.supply := rfl
@[simp] theorem State.setProgSel_bus_en (v : Byte) : (s.setProgSel v).bus.en = s.bus.en := rfl
@[simp] theorem State.setProgSel_txq (v : Byte) : (s.setProgSel v).txq = s.txq := rfl
@[simp] theorem State.setProgSel_host (v : Byte) : (s.setProgSel v).host = s.host := rfl
@[simp] theorem State.setProgSel_chip (v : Byte) : (s.setProgSel v).chip = s.chip := rfl

/-! ### `State.setAbus` -/

@[simp] theorem State.setAbus_st (a : CellAddr) : (s.setAbus a).st = s.st := rfl
@[simp] theorem State.setAbus_command (a : CellAddr) : (s.setAbus a).command = s.command := rfl
@[simp] theorem State.setAbus_lex (a : CellAddr) : (s.setAbus a).lex = s.lex := rfl
@[simp] theorem State.setAbus_discard (a : CellAddr) : (s.setAbus a).discard = s.discard := rfl
@[simp] theorem State.setAbus_busy (a : CellAddr) : (s.setAbus a).busy = s.busy := rfl
@[simp] theorem State.setAbus_errCause (a : CellAddr) : (s.setAbus a).errCause = s.errCause := rfl
@[simp] theorem State.setAbus_eng (a : CellAddr) : (s.setAbus a).eng = s.eng := rfl
@[simp] theorem State.setAbus_bus_chipSel (a : CellAddr) : (s.setAbus a).bus.chipSel = s.bus.chipSel := rfl
@[simp] theorem State.setAbus_bus_abus (a : CellAddr) : (s.setAbus a).bus.abus = a := rfl
@[simp] theorem State.setAbus_bus_progSel (a : CellAddr) : (s.setAbus a).bus.progSel = s.bus.progSel := rfl
@[simp] theorem State.setAbus_bus_supply (a : CellAddr) : (s.setAbus a).bus.supply = s.bus.supply := rfl
@[simp] theorem State.setAbus_bus_en (a : CellAddr) : (s.setAbus a).bus.en = s.bus.en := rfl
@[simp] theorem State.setAbus_txq (a : CellAddr) : (s.setAbus a).txq = s.txq := rfl
@[simp] theorem State.setAbus_host (a : CellAddr) : (s.setAbus a).host = s.host := rfl
@[simp] theorem State.setAbus_chip (a : CellAddr) : (s.setAbus a).chip = s.chip := rfl

/-! ### `State.setB` -/

@[simp] theorem State.setB_st (v : Byte) : (s.setB v).st = s.st := rfl
@[simp] theorem State.setB_command (v : Byte) : (s.setB v).command = s.command := rfl
@[simp] theorem State.setB_lex (v : Byte) : (s.setB v).lex = s.lex := rfl
@[simp] theorem State.setB_discard (v : Byte) : (s.setB v).discard = s.discard := rfl
@[simp] theorem State.setB_busy (v : Byte) : (s.setB v).busy = s.busy := rfl
@[simp] theorem State.setB_errCause (v : Byte) : (s.setB v).errCause = s.errCause := rfl
@[simp] theorem State.setB_eng_point (v : Byte) : (s.setB v).eng.point = s.eng.point := rfl
@[simp] theorem State.setB_eng_existing (v : Byte) : (s.setB v).eng.existing = s.eng.existing := rfl
@[simp] theorem State.setB_eng_target (v : Byte) : (s.setB v).eng.target = s.eng.target := rfl
@[simp] theorem State.setB_eng_achieved (v : Byte) : (s.setB v).eng.achieved = s.eng.achieved := rfl
@[simp] theorem State.setB_eng_bit (v : Byte) : (s.setB v).eng.bit = s.eng.bit := rfl
@[simp] theorem State.setB_eng_real (v : Byte) : (s.setB v).eng.real = s.eng.real := rfl
@[simp] theorem State.setB_eng_scanA (v : Byte) : (s.setB v).eng.scanA = s.eng.scanA := rfl
@[simp] theorem State.setB_eng_tmr (v : Byte) : (s.setB v).eng.tmr = s.eng.tmr := rfl
@[simp] theorem State.setB_eng_b (v : Byte) : (s.setB v).eng.b = v := rfl
@[simp] theorem State.setB_eng_ok (v : Byte) : (s.setB v).eng.ok = s.eng.ok := rfl
@[simp] theorem State.setB_bus (v : Byte) : (s.setB v).bus = s.bus := rfl
@[simp] theorem State.setB_txq (v : Byte) : (s.setB v).txq = s.txq := rfl
@[simp] theorem State.setB_host (v : Byte) : (s.setB v).host = s.host := rfl
@[simp] theorem State.setB_chip (v : Byte) : (s.setB v).chip = s.chip := rfl

/-! ### `State.setExisting` -/

@[simp] theorem State.setExisting_st (v : Byte) : (s.setExisting v).st = s.st := rfl
@[simp] theorem State.setExisting_command (v : Byte) : (s.setExisting v).command = s.command := rfl
@[simp] theorem State.setExisting_lex (v : Byte) : (s.setExisting v).lex = s.lex := rfl
@[simp] theorem State.setExisting_discard (v : Byte) : (s.setExisting v).discard = s.discard := rfl
@[simp] theorem State.setExisting_busy (v : Byte) : (s.setExisting v).busy = s.busy := rfl
@[simp] theorem State.setExisting_errCause (v : Byte) : (s.setExisting v).errCause = s.errCause := rfl
@[simp] theorem State.setExisting_eng_point (v : Byte) : (s.setExisting v).eng.point = s.eng.point := rfl
@[simp] theorem State.setExisting_eng_existing (v : Byte) : (s.setExisting v).eng.existing = v := rfl
@[simp] theorem State.setExisting_eng_target (v : Byte) : (s.setExisting v).eng.target = s.eng.target := rfl
@[simp] theorem State.setExisting_eng_achieved (v : Byte) : (s.setExisting v).eng.achieved = s.eng.achieved := rfl
@[simp] theorem State.setExisting_eng_bit (v : Byte) : (s.setExisting v).eng.bit = s.eng.bit := rfl
@[simp] theorem State.setExisting_eng_real (v : Byte) : (s.setExisting v).eng.real = s.eng.real := rfl
@[simp] theorem State.setExisting_eng_scanA (v : Byte) : (s.setExisting v).eng.scanA = s.eng.scanA := rfl
@[simp] theorem State.setExisting_eng_tmr (v : Byte) : (s.setExisting v).eng.tmr = s.eng.tmr := rfl
@[simp] theorem State.setExisting_eng_b (v : Byte) : (s.setExisting v).eng.b = s.eng.b := rfl
@[simp] theorem State.setExisting_eng_ok (v : Byte) : (s.setExisting v).eng.ok = s.eng.ok := rfl
@[simp] theorem State.setExisting_bus (v : Byte) : (s.setExisting v).bus = s.bus := rfl
@[simp] theorem State.setExisting_txq (v : Byte) : (s.setExisting v).txq = s.txq := rfl
@[simp] theorem State.setExisting_host (v : Byte) : (s.setExisting v).host = s.host := rfl
@[simp] theorem State.setExisting_chip (v : Byte) : (s.setExisting v).chip = s.chip := rfl

/-! ### `State.setScan` -/

@[simp] theorem State.setScan_st (a : BitVec 10) : (s.setScan a).st = s.st := rfl
@[simp] theorem State.setScan_command (a : BitVec 10) : (s.setScan a).command = s.command := rfl
@[simp] theorem State.setScan_lex (a : BitVec 10) : (s.setScan a).lex = s.lex := rfl
@[simp] theorem State.setScan_discard (a : BitVec 10) : (s.setScan a).discard = s.discard := rfl
@[simp] theorem State.setScan_busy (a : BitVec 10) : (s.setScan a).busy = s.busy := rfl
@[simp] theorem State.setScan_errCause (a : BitVec 10) : (s.setScan a).errCause = s.errCause := rfl
@[simp] theorem State.setScan_eng_point (a : BitVec 10) : (s.setScan a).eng.point = s.eng.point := rfl
@[simp] theorem State.setScan_eng_existing (a : BitVec 10) : (s.setScan a).eng.existing = s.eng.existing := rfl
@[simp] theorem State.setScan_eng_target (a : BitVec 10) : (s.setScan a).eng.target = s.eng.target := rfl
@[simp] theorem State.setScan_eng_achieved (a : BitVec 10) : (s.setScan a).eng.achieved = s.eng.achieved := rfl
@[simp] theorem State.setScan_eng_bit (a : BitVec 10) : (s.setScan a).eng.bit = s.eng.bit := rfl
@[simp] theorem State.setScan_eng_real (a : BitVec 10) : (s.setScan a).eng.real = s.eng.real := rfl
@[simp] theorem State.setScan_eng_scanA (a : BitVec 10) : (s.setScan a).eng.scanA = a := rfl
@[simp] theorem State.setScan_eng_tmr (a : BitVec 10) : (s.setScan a).eng.tmr = s.eng.tmr := rfl
@[simp] theorem State.setScan_eng_b (a : BitVec 10) : (s.setScan a).eng.b = s.eng.b := rfl
@[simp] theorem State.setScan_eng_ok (a : BitVec 10) : (s.setScan a).eng.ok = s.eng.ok := rfl
@[simp] theorem State.setScan_bus (a : BitVec 10) : (s.setScan a).bus = s.bus := rfl
@[simp] theorem State.setScan_txq (a : BitVec 10) : (s.setScan a).txq = s.txq := rfl
@[simp] theorem State.setScan_host (a : BitVec 10) : (s.setScan a).host = s.host := rfl
@[simp] theorem State.setScan_chip (a : BitVec 10) : (s.setScan a).chip = s.chip := rfl

/-! ### `State.setBit` -/

@[simp] theorem State.setBit_st (i : Nat) : (s.setBit i).st = s.st := rfl
@[simp] theorem State.setBit_command (i : Nat) : (s.setBit i).command = s.command := rfl
@[simp] theorem State.setBit_lex (i : Nat) : (s.setBit i).lex = s.lex := rfl
@[simp] theorem State.setBit_discard (i : Nat) : (s.setBit i).discard = s.discard := rfl
@[simp] theorem State.setBit_busy (i : Nat) : (s.setBit i).busy = s.busy := rfl
@[simp] theorem State.setBit_errCause (i : Nat) : (s.setBit i).errCause = s.errCause := rfl
@[simp] theorem State.setBit_eng_point (i : Nat) : (s.setBit i).eng.point = s.eng.point := rfl
@[simp] theorem State.setBit_eng_existing (i : Nat) : (s.setBit i).eng.existing = s.eng.existing := rfl
@[simp] theorem State.setBit_eng_target (i : Nat) : (s.setBit i).eng.target = s.eng.target := rfl
@[simp] theorem State.setBit_eng_achieved (i : Nat) : (s.setBit i).eng.achieved = s.eng.achieved := rfl
@[simp] theorem State.setBit_eng_bit (i : Nat) : (s.setBit i).eng.bit = BitVec.ofNat 4 i := rfl
@[simp] theorem State.setBit_eng_real (i : Nat) : (s.setBit i).eng.real = s.eng.real := rfl
@[simp] theorem State.setBit_eng_scanA (i : Nat) : (s.setBit i).eng.scanA = s.eng.scanA := rfl
@[simp] theorem State.setBit_eng_tmr (i : Nat) : (s.setBit i).eng.tmr = s.eng.tmr := rfl
@[simp] theorem State.setBit_eng_b (i : Nat) : (s.setBit i).eng.b = s.eng.b := rfl
@[simp] theorem State.setBit_eng_ok (i : Nat) : (s.setBit i).eng.ok = s.eng.ok := rfl
@[simp] theorem State.setBit_bus (i : Nat) : (s.setBit i).bus = s.bus := rfl
@[simp] theorem State.setBit_txq (i : Nat) : (s.setBit i).txq = s.txq := rfl
@[simp] theorem State.setBit_host (i : Nat) : (s.setBit i).host = s.host := rfl
@[simp] theorem State.setBit_chip (i : Nat) : (s.setBit i).chip = s.chip := rfl

/-! ### `State.start` -/

@[simp] theorem State.start_st (p : Point) : (s.start p).st = .executing := rfl
@[simp] theorem State.start_command (p : Point) : (s.start p).command = s.command := rfl
@[simp] theorem State.start_lex (p : Point) : (s.start p).lex = s.lex := rfl
@[simp] theorem State.start_discard (p : Point) : (s.start p).discard = s.discard := rfl
@[simp] theorem State.start_busy (p : Point) : (s.start p).busy = true := rfl
@[simp] theorem State.start_errCause (p : Point) : (s.start p).errCause = .none := rfl
@[simp] theorem State.start_eng_point (p : Point) : (s.start p).eng.point = p := rfl
@[simp] theorem State.start_eng_existing (p : Point) : (s.start p).eng.existing = s.eng.existing := rfl
@[simp] theorem State.start_eng_target (p : Point) : (s.start p).eng.target = s.eng.target := rfl
@[simp] theorem State.start_eng_achieved (p : Point) : (s.start p).eng.achieved = s.eng.achieved := rfl
@[simp] theorem State.start_eng_bit (p : Point) : (s.start p).eng.bit = s.eng.bit := rfl
@[simp] theorem State.start_eng_real (p : Point) : (s.start p).eng.real = s.eng.real := rfl
@[simp] theorem State.start_eng_scanA (p : Point) : (s.start p).eng.scanA = s.eng.scanA := rfl
@[simp] theorem State.start_eng_tmr (p : Point) : (s.start p).eng.tmr = s.eng.tmr := rfl
@[simp] theorem State.start_eng_b (p : Point) : (s.start p).eng.b = s.eng.b := rfl
@[simp] theorem State.start_eng_ok (p : Point) : (s.start p).eng.ok = s.eng.ok := rfl
@[simp] theorem State.start_bus (p : Point) : (s.start p).bus = s.bus := rfl
@[simp] theorem State.start_txq (p : Point) : (s.start p).txq = s.txq := rfl
@[simp] theorem State.start_host (p : Point) : (s.start p).host = s.host := rfl
@[simp] theorem State.start_chip (p : Point) : (s.start p).chip = s.chip := rfl

/-! ### `State.finish` -/

@[simp] theorem State.finish_st (bytes : List Byte) : (s.finish bytes).st = .ready := rfl
@[simp] theorem State.finish_command (bytes : List Byte) : (s.finish bytes).command = emptyCommand := rfl
@[simp] theorem State.finish_lex (bytes : List Byte) : (s.finish bytes).lex = s.lex := rfl
@[simp] theorem State.finish_discard (bytes : List Byte) : (s.finish bytes).discard = s.discard := rfl
@[simp] theorem State.finish_busy (bytes : List Byte) : (s.finish bytes).busy = s.busy := rfl
@[simp] theorem State.finish_errCause (bytes : List Byte) : (s.finish bytes).errCause = s.errCause := rfl
@[simp] theorem State.finish_eng_point (bytes : List Byte) : (s.finish bytes).eng.point = .idle := rfl
@[simp] theorem State.finish_eng_existing (bytes : List Byte) : (s.finish bytes).eng.existing = s.eng.existing := rfl
@[simp] theorem State.finish_eng_target (bytes : List Byte) : (s.finish bytes).eng.target = s.eng.target := rfl
@[simp] theorem State.finish_eng_achieved (bytes : List Byte) : (s.finish bytes).eng.achieved = s.eng.achieved := rfl
@[simp] theorem State.finish_eng_bit (bytes : List Byte) : (s.finish bytes).eng.bit = s.eng.bit := rfl
@[simp] theorem State.finish_eng_real (bytes : List Byte) : (s.finish bytes).eng.real = s.eng.real := rfl
@[simp] theorem State.finish_eng_scanA (bytes : List Byte) : (s.finish bytes).eng.scanA = s.eng.scanA := rfl
@[simp] theorem State.finish_eng_tmr (bytes : List Byte) : (s.finish bytes).eng.tmr = s.eng.tmr := rfl
@[simp] theorem State.finish_eng_b (bytes : List Byte) : (s.finish bytes).eng.b = s.eng.b := rfl
@[simp] theorem State.finish_eng_ok (bytes : List Byte) : (s.finish bytes).eng.ok = s.eng.ok := rfl
@[simp] theorem State.finish_bus (bytes : List Byte) : (s.finish bytes).bus = s.bus := rfl
@[simp] theorem State.finish_txq (bytes : List Byte) : (s.finish bytes).txq = s.txq ++ bytes := rfl
@[simp] theorem State.finish_host (bytes : List Byte) : (s.finish bytes).host = s.host := rfl
@[simp] theorem State.finish_chip (bytes : List Byte) : (s.finish bytes).chip = s.chip := rfl

/-! ### `State.raise` -/

@[simp] theorem State.raise_st (c : Cause) (term : Terminator) : (s.raise c term).st = .ready := rfl
@[simp] theorem State.raise_command (c : Cause) (term : Terminator) : (s.raise c term).command = emptyCommand := rfl
@[simp] theorem State.raise_lex (c : Cause) (term : Terminator) : (s.raise c term).lex = clearedLexer := rfl
@[simp] theorem State.raise_discard (c : Cause) (term : Terminator) : (s.raise c term).discard = decide (term = .delim) := rfl
@[simp] theorem State.raise_busy (c : Cause) (term : Terminator) : (s.raise c term).busy = true := rfl
@[simp] theorem State.raise_errCause (c : Cause) (term : Terminator) : (s.raise c term).errCause = c := rfl
@[simp] theorem State.raise_eng (c : Cause) (term : Terminator) : (s.raise c term).eng = s.eng := rfl
@[simp] theorem State.raise_bus (c : Cause) (term : Terminator) : (s.raise c term).bus = s.bus := rfl
@[simp] theorem State.raise_txq (c : Cause) (term : Terminator) : (s.raise c term).txq = s.txq ++ errorResponse := rfl
@[simp] theorem State.raise_host (c : Cause) (term : Terminator) : (s.raise c term).host = s.host := rfl
@[simp] theorem State.raise_chip (c : Cause) (term : Terminator) : (s.raise c term).chip = s.chip := rfl

/-! ### `State.resetStep` -/

@[simp] theorem State.resetStep_st : s.resetStep.st = .ready := rfl
@[simp] theorem State.resetStep_command : s.resetStep.command = emptyCommand := rfl
@[simp] theorem State.resetStep_lex : s.resetStep.lex = clearedLexer := rfl
@[simp] theorem State.resetStep_discard : s.resetStep.discard = false := rfl
@[simp] theorem State.resetStep_busy : s.resetStep.busy = false := rfl
@[simp] theorem State.resetStep_errCause : s.resetStep.errCause = .none := rfl
@[simp] theorem State.resetStep_eng : s.resetStep.eng = resetEngine := rfl
@[simp] theorem State.resetStep_bus : s.resetStep.bus = resetBus := rfl
@[simp] theorem State.resetStep_txq : s.resetStep.txq = [] := rfl
@[simp] theorem State.resetStep_host_ports : s.resetStep.host.ports = s.host.ports.tail := rfl
@[simp] theorem State.resetStep_host_rx : s.resetStep.host.rx = s.host.rx := rfl
@[simp] theorem State.resetStep_host_taken : s.resetStep.host.taken = s.host.taken := rfl
@[simp] theorem State.resetStep_chip : s.resetStep.chip = s.chip.cutByReset s.bus := rfl

/-! ### `State.recordBit` -/

@[simp] theorem State.recordBit_st (i : Nat) : (s.recordBit i).st = s.st := rfl
@[simp] theorem State.recordBit_command (i : Nat) : (s.recordBit i).command = s.command := rfl
@[simp] theorem State.recordBit_lex (i : Nat) : (s.recordBit i).lex = s.lex := rfl
@[simp] theorem State.recordBit_discard (i : Nat) : (s.recordBit i).discard = s.discard := rfl
@[simp] theorem State.recordBit_busy (i : Nat) : (s.recordBit i).busy = s.busy := rfl
@[simp] theorem State.recordBit_errCause (i : Nat) : (s.recordBit i).errCause = s.errCause := rfl
@[simp] theorem State.recordBit_eng_point (i : Nat) : (s.recordBit i).eng.point = .bitNext := rfl
@[simp] theorem State.recordBit_eng_existing (i : Nat) : (s.recordBit i).eng.existing = s.eng.existing := rfl
@[simp] theorem State.recordBit_eng_target (i : Nat) : (s.recordBit i).eng.target = s.eng.target := rfl
@[simp] theorem State.recordBit_eng_achieved (i : Nat) : (s.recordBit i).eng.achieved = s.eng.achieved ||| onehot8 i := rfl
@[simp] theorem State.recordBit_eng_bit (i : Nat) : (s.recordBit i).eng.bit = s.eng.bit := rfl
@[simp] theorem State.recordBit_eng_real (i : Nat) : (s.recordBit i).eng.real = s.eng.real := rfl
@[simp] theorem State.recordBit_eng_scanA (i : Nat) : (s.recordBit i).eng.scanA = s.eng.scanA := rfl
@[simp] theorem State.recordBit_eng_tmr (i : Nat) : (s.recordBit i).eng.tmr = s.eng.tmr := rfl
@[simp] theorem State.recordBit_eng_b (i : Nat) : (s.recordBit i).eng.b = s.eng.b := rfl
@[simp] theorem State.recordBit_eng_ok (i : Nat) : (s.recordBit i).eng.ok = s.eng.ok := rfl
@[simp] theorem State.recordBit_bus (i : Nat) : (s.recordBit i).bus = s.bus := rfl
@[simp] theorem State.recordBit_txq (i : Nat) : (s.recordBit i).txq = s.txq := rfl
@[simp] theorem State.recordBit_host (i : Nat) : (s.recordBit i).host = s.host := rfl
@[simp] theorem State.recordBit_chip (i : Nat) : (s.recordBit i).chip = s.chip := rfl

/-! ### `State.setTarget` -/

@[simp] theorem State.setTarget_st (v : Byte) (r : Bool) : (s.setTarget v r).st = s.st := rfl
@[simp] theorem State.setTarget_command (v : Byte) (r : Bool) : (s.setTarget v r).command = s.command := rfl
@[simp] theorem State.setTarget_lex (v : Byte) (r : Bool) : (s.setTarget v r).lex = s.lex := rfl
@[simp] theorem State.setTarget_discard (v : Byte) (r : Bool) : (s.setTarget v r).discard = s.discard := rfl
@[simp] theorem State.setTarget_busy (v : Byte) (r : Bool) : (s.setTarget v r).busy = s.busy := rfl
@[simp] theorem State.setTarget_errCause (v : Byte) (r : Bool) : (s.setTarget v r).errCause = s.errCause := rfl
@[simp] theorem State.setTarget_eng_point (v : Byte) (r : Bool) : (s.setTarget v r).eng.point = .copyExisting := rfl
@[simp] theorem State.setTarget_eng_existing (v : Byte) (r : Bool) : (s.setTarget v r).eng.existing = s.eng.existing := rfl
@[simp] theorem State.setTarget_eng_target (v : Byte) (r : Bool) : (s.setTarget v r).eng.target = v := rfl
@[simp] theorem State.setTarget_eng_achieved (v : Byte) (r : Bool) : (s.setTarget v r).eng.achieved = s.eng.achieved := rfl
@[simp] theorem State.setTarget_eng_bit (v : Byte) (r : Bool) : (s.setTarget v r).eng.bit = s.eng.bit := rfl
@[simp] theorem State.setTarget_eng_real (v : Byte) (r : Bool) : (s.setTarget v r).eng.real = r := rfl
@[simp] theorem State.setTarget_eng_scanA (v : Byte) (r : Bool) : (s.setTarget v r).eng.scanA = s.eng.scanA := rfl
@[simp] theorem State.setTarget_eng_tmr (v : Byte) (r : Bool) : (s.setTarget v r).eng.tmr = s.eng.tmr := rfl
@[simp] theorem State.setTarget_eng_b (v : Byte) (r : Bool) : (s.setTarget v r).eng.b = s.eng.b := rfl
@[simp] theorem State.setTarget_eng_ok (v : Byte) (r : Bool) : (s.setTarget v r).eng.ok = s.eng.ok := rfl
@[simp] theorem State.setTarget_bus (v : Byte) (r : Bool) : (s.setTarget v r).bus = s.bus := rfl
@[simp] theorem State.setTarget_txq (v : Byte) (r : Bool) : (s.setTarget v r).txq = s.txq := rfl
@[simp] theorem State.setTarget_host (v : Byte) (r : Bool) : (s.setTarget v r).host = s.host := rfl
@[simp] theorem State.setTarget_chip (v : Byte) (r : Bool) : (s.setTarget v r).chip = s.chip := rfl

/-! ### `State.copyExisting` -/

@[simp] theorem State.copyExisting_st : s.copyExisting.st = s.st := rfl
@[simp] theorem State.copyExisting_command : s.copyExisting.command = s.command := rfl
@[simp] theorem State.copyExisting_lex : s.copyExisting.lex = s.lex := rfl
@[simp] theorem State.copyExisting_discard : s.copyExisting.discard = s.discard := rfl
@[simp] theorem State.copyExisting_busy : s.copyExisting.busy = s.busy := rfl
@[simp] theorem State.copyExisting_errCause : s.copyExisting.errCause = s.errCause := rfl
@[simp] theorem State.copyExisting_eng_point : s.copyExisting.eng.point = .burnTest := rfl
@[simp] theorem State.copyExisting_eng_existing : s.copyExisting.eng.existing = s.eng.existing := rfl
@[simp] theorem State.copyExisting_eng_target : s.copyExisting.eng.target = s.eng.target := rfl
@[simp] theorem State.copyExisting_eng_achieved : s.copyExisting.eng.achieved = s.eng.existing := rfl
@[simp] theorem State.copyExisting_eng_bit : s.copyExisting.eng.bit = s.eng.bit := rfl
@[simp] theorem State.copyExisting_eng_real : s.copyExisting.eng.real = s.eng.real := rfl
@[simp] theorem State.copyExisting_eng_scanA : s.copyExisting.eng.scanA = s.eng.scanA := rfl
@[simp] theorem State.copyExisting_eng_tmr : s.copyExisting.eng.tmr = s.eng.tmr := rfl
@[simp] theorem State.copyExisting_eng_b : s.copyExisting.eng.b = s.eng.b := rfl
@[simp] theorem State.copyExisting_eng_ok : s.copyExisting.eng.ok = s.eng.ok := rfl
@[simp] theorem State.copyExisting_bus : s.copyExisting.bus = s.bus := rfl
@[simp] theorem State.copyExisting_txq : s.copyExisting.txq = s.txq := rfl
@[simp] theorem State.copyExisting_host : s.copyExisting.host = s.host := rfl
@[simp] theorem State.copyExisting_chip : s.copyExisting.chip = s.chip := rfl

/-! ### `State.takeVerify` -/

@[simp] theorem State.takeVerify_st (v : Byte) : (s.takeVerify v).st = s.st := rfl
@[simp] theorem State.takeVerify_command (v : Byte) : (s.takeVerify v).command = s.command := rfl
@[simp] theorem State.takeVerify_lex (v : Byte) : (s.takeVerify v).lex = s.lex := rfl
@[simp] theorem State.takeVerify_discard (v : Byte) : (s.takeVerify v).discard = s.discard := rfl
@[simp] theorem State.takeVerify_busy (v : Byte) : (s.takeVerify v).busy = s.busy := rfl
@[simp] theorem State.takeVerify_errCause (v : Byte) : (s.takeVerify v).errCause = s.errCause := rfl
@[simp] theorem State.takeVerify_eng_point (v : Byte) : (s.takeVerify v).eng.point = .verifyTest := rfl
@[simp] theorem State.takeVerify_eng_existing (v : Byte) : (s.takeVerify v).eng.existing = s.eng.existing := rfl
@[simp] theorem State.takeVerify_eng_target (v : Byte) : (s.takeVerify v).eng.target = s.eng.target := rfl
@[simp] theorem State.takeVerify_eng_achieved (v : Byte) : (s.takeVerify v).eng.achieved = s.eng.achieved := rfl
@[simp] theorem State.takeVerify_eng_bit (v : Byte) : (s.takeVerify v).eng.bit = s.eng.bit := rfl
@[simp] theorem State.takeVerify_eng_real (v : Byte) : (s.takeVerify v).eng.real = s.eng.real := rfl
@[simp] theorem State.takeVerify_eng_scanA (v : Byte) : (s.takeVerify v).eng.scanA = s.eng.scanA := rfl
@[simp] theorem State.takeVerify_eng_tmr (v : Byte) : (s.takeVerify v).eng.tmr = BitVec.ofNat 32 (Config.nCool - 1) := rfl
@[simp] theorem State.takeVerify_eng_b (v : Byte) : (s.takeVerify v).eng.b = s.eng.b := rfl
@[simp] theorem State.takeVerify_eng_ok (v : Byte) : (s.takeVerify v).eng.ok = v.getLsbD s.eng.bit.toNat := rfl
@[simp] theorem State.takeVerify_bus_chipSel (v : Byte) : (s.takeVerify v).bus.chipSel = s.bus.chipSel := rfl
@[simp] theorem State.takeVerify_bus_abus (v : Byte) : (s.takeVerify v).bus.abus = s.bus.abus := rfl
@[simp] theorem State.takeVerify_bus_progSel (v : Byte) : (s.takeVerify v).bus.progSel = s.bus.progSel := rfl
@[simp] theorem State.takeVerify_bus_supply (v : Byte) : (s.takeVerify v).bus.supply = s.bus.supply := rfl
@[simp] theorem State.takeVerify_bus_en (v : Byte) : (s.takeVerify v).bus.en = false := rfl
@[simp] theorem State.takeVerify_txq (v : Byte) : (s.takeVerify v).txq = s.txq := rfl
@[simp] theorem State.takeVerify_host (v : Byte) : (s.takeVerify v).host = s.host := rfl
@[simp] theorem State.takeVerify_chip (v : Byte) : (s.takeVerify v).chip = s.chip := rfl

/-! ### `State.selectLine` -/

@[simp] theorem State.selectLine_st (i : Nat) : (s.selectLine i).st = s.st := rfl
@[simp] theorem State.selectLine_command (i : Nat) : (s.selectLine i).command = s.command := rfl
@[simp] theorem State.selectLine_lex (i : Nat) : (s.selectLine i).lex = s.lex := rfl
@[simp] theorem State.selectLine_discard (i : Nat) : (s.selectLine i).discard = s.discard := rfl
@[simp] theorem State.selectLine_busy (i : Nat) : (s.selectLine i).busy = s.busy := rfl
@[simp] theorem State.selectLine_errCause (i : Nat) : (s.selectLine i).errCause = s.errCause := rfl
@[simp] theorem State.selectLine_eng_point (i : Nat) : (s.selectLine i).eng.point = .burnRaise := rfl
@[simp] theorem State.selectLine_eng_existing (i : Nat) : (s.selectLine i).eng.existing = s.eng.existing := rfl
@[simp] theorem State.selectLine_eng_target (i : Nat) : (s.selectLine i).eng.target = s.eng.target := rfl
@[simp] theorem State.selectLine_eng_achieved (i : Nat) : (s.selectLine i).eng.achieved = s.eng.achieved := rfl
@[simp] theorem State.selectLine_eng_bit (i : Nat) : (s.selectLine i).eng.bit = s.eng.bit := rfl
@[simp] theorem State.selectLine_eng_real (i : Nat) : (s.selectLine i).eng.real = s.eng.real := rfl
@[simp] theorem State.selectLine_eng_scanA (i : Nat) : (s.selectLine i).eng.scanA = s.eng.scanA := rfl
@[simp] theorem State.selectLine_eng_tmr (i : Nat) : (s.selectLine i).eng.tmr = s.eng.tmr := rfl
@[simp] theorem State.selectLine_eng_b (i : Nat) : (s.selectLine i).eng.b = s.eng.b := rfl
@[simp] theorem State.selectLine_eng_ok (i : Nat) : (s.selectLine i).eng.ok = s.eng.ok := rfl
@[simp] theorem State.selectLine_bus_chipSel (i : Nat) : (s.selectLine i).bus.chipSel = s.bus.chipSel := rfl
@[simp] theorem State.selectLine_bus_abus (i : Nat) : (s.selectLine i).bus.abus = s.bus.abus := rfl
@[simp] theorem State.selectLine_bus_progSel (i : Nat) : (s.selectLine i).bus.progSel = onehot8 i := rfl
@[simp] theorem State.selectLine_bus_supply (i : Nat) : (s.selectLine i).bus.supply = s.bus.supply := rfl
@[simp] theorem State.selectLine_bus_en (i : Nat) : (s.selectLine i).bus.en = s.bus.en := rfl
@[simp] theorem State.selectLine_txq (i : Nat) : (s.selectLine i).txq = s.txq := rfl
@[simp] theorem State.selectLine_host (i : Nat) : (s.selectLine i).host = s.host := rfl
@[simp] theorem State.selectLine_chip (i : Nat) : (s.selectLine i).chip = s.chip := rfl

/-! ### `State.selectChip` -/

@[simp] theorem State.selectChip_st (p : Profile) : (s.selectChip p).st = s.st := rfl
@[simp] theorem State.selectChip_command (p : Profile) : (s.selectChip p).command = s.command := rfl
@[simp] theorem State.selectChip_lex (p : Profile) : (s.selectChip p).lex = s.lex := rfl
@[simp] theorem State.selectChip_discard (p : Profile) : (s.selectChip p).discard = s.discard := rfl
@[simp] theorem State.selectChip_busy (p : Profile) : (s.selectChip p).busy = s.busy := rfl
@[simp] theorem State.selectChip_errCause (p : Profile) : (s.selectChip p).errCause = s.errCause := rfl
@[simp] theorem State.selectChip_eng_point (p : Profile) : (s.selectChip p).eng.point = .powerOn := rfl
@[simp] theorem State.selectChip_eng_existing (p : Profile) : (s.selectChip p).eng.existing = s.eng.existing := rfl
@[simp] theorem State.selectChip_eng_target (p : Profile) : (s.selectChip p).eng.target = s.eng.target := rfl
@[simp] theorem State.selectChip_eng_achieved (p : Profile) : (s.selectChip p).eng.achieved = s.eng.achieved := rfl
@[simp] theorem State.selectChip_eng_bit (p : Profile) : (s.selectChip p).eng.bit = s.eng.bit := rfl
@[simp] theorem State.selectChip_eng_real (p : Profile) : (s.selectChip p).eng.real = s.eng.real := rfl
@[simp] theorem State.selectChip_eng_scanA (p : Profile) : (s.selectChip p).eng.scanA = s.eng.scanA := rfl
@[simp] theorem State.selectChip_eng_tmr (p : Profile) : (s.selectChip p).eng.tmr = s.eng.tmr := rfl
@[simp] theorem State.selectChip_eng_b (p : Profile) : (s.selectChip p).eng.b = s.eng.b := rfl
@[simp] theorem State.selectChip_eng_ok (p : Profile) : (s.selectChip p).eng.ok = s.eng.ok := rfl
@[simp] theorem State.selectChip_bus_chipSel (p : Profile) : (s.selectChip p).bus.chipSel = p := rfl
@[simp] theorem State.selectChip_bus_abus (p : Profile) : (s.selectChip p).bus.abus = 0#9 := rfl
@[simp] theorem State.selectChip_bus_progSel (p : Profile) : (s.selectChip p).bus.progSel = 0x00#8 := rfl
@[simp] theorem State.selectChip_bus_supply (p : Profile) : (s.selectChip p).bus.supply = s.bus.supply := rfl
@[simp] theorem State.selectChip_bus_en (p : Profile) : (s.selectChip p).bus.en = false := rfl
@[simp] theorem State.selectChip_txq (p : Profile) : (s.selectChip p).txq = s.txq := rfl
@[simp] theorem State.selectChip_host (p : Profile) : (s.selectChip p).host = s.host := rfl
@[simp] theorem State.selectChip_chip (p : Profile) : (s.selectChip p).chip = s.chip := rfl

/-! ### `State.powerOn` -/

@[simp] theorem State.powerOn_st : s.powerOn.st = s.st := rfl
@[simp] theorem State.powerOn_command : s.powerOn.command = s.command := rfl
@[simp] theorem State.powerOn_lex : s.powerOn.lex = s.lex := rfl
@[simp] theorem State.powerOn_discard : s.powerOn.discard = s.discard := rfl
@[simp] theorem State.powerOn_busy : s.powerOn.busy = s.busy := rfl
@[simp] theorem State.powerOn_errCause : s.powerOn.errCause = s.errCause := rfl
@[simp] theorem State.powerOn_eng_point : s.powerOn.eng.point = .pathOn := rfl
@[simp] theorem State.powerOn_eng_existing : s.powerOn.eng.existing = s.eng.existing := rfl
@[simp] theorem State.powerOn_eng_target : s.powerOn.eng.target = s.eng.target := rfl
@[simp] theorem State.powerOn_eng_achieved : s.powerOn.eng.achieved = s.eng.achieved := rfl
@[simp] theorem State.powerOn_eng_bit : s.powerOn.eng.bit = s.eng.bit := rfl
@[simp] theorem State.powerOn_eng_real : s.powerOn.eng.real = s.eng.real := rfl
@[simp] theorem State.powerOn_eng_scanA : s.powerOn.eng.scanA = s.eng.scanA := rfl
@[simp] theorem State.powerOn_eng_tmr : s.powerOn.eng.tmr = BitVec.ofNat 32 (Config.nPwrup - 1) := rfl
@[simp] theorem State.powerOn_eng_b : s.powerOn.eng.b = s.eng.b := rfl
@[simp] theorem State.powerOn_eng_ok : s.powerOn.eng.ok = s.eng.ok := rfl
@[simp] theorem State.powerOn_bus_chipSel : s.powerOn.bus.chipSel = s.bus.chipSel := rfl
@[simp] theorem State.powerOn_bus_abus : s.powerOn.bus.abus = s.bus.abus := rfl
@[simp] theorem State.powerOn_bus_progSel : s.powerOn.bus.progSel = s.bus.progSel := rfl
@[simp] theorem State.powerOn_bus_supply : s.powerOn.bus.supply = .nominal := rfl
@[simp] theorem State.powerOn_bus_en : s.powerOn.bus.en = s.bus.en := rfl
@[simp] theorem State.powerOn_txq : s.powerOn.txq = s.txq := rfl
@[simp] theorem State.powerOn_host : s.powerOn.host = s.host := rfl
@[simp] theorem State.powerOn_chip : s.powerOn.chip = s.chip := rfl

/-! ### `State.openPath` -/

@[simp] theorem State.openPath_st (p : Point) : (s.openPath p).st = s.st := rfl
@[simp] theorem State.openPath_command (p : Point) : (s.openPath p).command = s.command := rfl
@[simp] theorem State.openPath_lex (p : Point) : (s.openPath p).lex = s.lex := rfl
@[simp] theorem State.openPath_discard (p : Point) : (s.openPath p).discard = s.discard := rfl
@[simp] theorem State.openPath_busy (p : Point) : (s.openPath p).busy = s.busy := rfl
@[simp] theorem State.openPath_errCause (p : Point) : (s.openPath p).errCause = s.errCause := rfl
@[simp] theorem State.openPath_eng_point (p : Point) : (s.openPath p).eng.point = p := rfl
@[simp] theorem State.openPath_eng_existing (p : Point) : (s.openPath p).eng.existing = s.eng.existing := rfl
@[simp] theorem State.openPath_eng_target (p : Point) : (s.openPath p).eng.target = s.eng.target := rfl
@[simp] theorem State.openPath_eng_achieved (p : Point) : (s.openPath p).eng.achieved = s.eng.achieved := rfl
@[simp] theorem State.openPath_eng_bit (p : Point) : (s.openPath p).eng.bit = s.eng.bit := rfl
@[simp] theorem State.openPath_eng_real (p : Point) : (s.openPath p).eng.real = s.eng.real := rfl
@[simp] theorem State.openPath_eng_scanA (p : Point) : (s.openPath p).eng.scanA = s.eng.scanA := rfl
@[simp] theorem State.openPath_eng_tmr (p : Point) : (s.openPath p).eng.tmr = s.eng.tmr := rfl
@[simp] theorem State.openPath_eng_b (p : Point) : (s.openPath p).eng.b = s.eng.b := rfl
@[simp] theorem State.openPath_eng_ok (p : Point) : (s.openPath p).eng.ok = s.eng.ok := rfl
@[simp] theorem State.openPath_bus_chipSel (p : Point) : (s.openPath p).bus.chipSel = s.bus.chipSel := rfl
@[simp] theorem State.openPath_bus_abus (p : Point) : (s.openPath p).bus.abus = s.bus.abus := rfl
@[simp] theorem State.openPath_bus_progSel (p : Point) : (s.openPath p).bus.progSel = s.bus.progSel := rfl
@[simp] theorem State.openPath_bus_supply (p : Point) : (s.openPath p).bus.supply = s.bus.supply := rfl
@[simp] theorem State.openPath_bus_en (p : Point) : (s.openPath p).bus.en = true := rfl
@[simp] theorem State.openPath_txq (p : Point) : (s.openPath p).txq = s.txq := rfl
@[simp] theorem State.openPath_host (p : Point) : (s.openPath p).host = s.host := rfl
@[simp] theorem State.openPath_chip (p : Point) : (s.openPath p).chip = s.chip := rfl

/-! ### `State.powerDown` -/

@[simp] theorem State.powerDown_st : s.powerDown.st = s.st := rfl
@[simp] theorem State.powerDown_command : s.powerDown.command = s.command := rfl
@[simp] theorem State.powerDown_lex : s.powerDown.lex = s.lex := rfl
@[simp] theorem State.powerDown_discard : s.powerDown.discard = s.discard := rfl
@[simp] theorem State.powerDown_busy : s.powerDown.busy = s.busy := rfl
@[simp] theorem State.powerDown_errCause : s.powerDown.errCause = s.errCause := rfl
@[simp] theorem State.powerDown_eng_point : s.powerDown.eng.point = .powerOff := rfl
@[simp] theorem State.powerDown_eng_existing : s.powerDown.eng.existing = s.eng.existing := rfl
@[simp] theorem State.powerDown_eng_target : s.powerDown.eng.target = s.eng.target := rfl
@[simp] theorem State.powerDown_eng_achieved : s.powerDown.eng.achieved = s.eng.achieved := rfl
@[simp] theorem State.powerDown_eng_bit : s.powerDown.eng.bit = s.eng.bit := rfl
@[simp] theorem State.powerDown_eng_real : s.powerDown.eng.real = s.eng.real := rfl
@[simp] theorem State.powerDown_eng_scanA : s.powerDown.eng.scanA = s.eng.scanA := rfl
@[simp] theorem State.powerDown_eng_tmr : s.powerDown.eng.tmr = s.eng.tmr := rfl
@[simp] theorem State.powerDown_eng_b : s.powerDown.eng.b = s.eng.b := rfl
@[simp] theorem State.powerDown_eng_ok : s.powerDown.eng.ok = s.eng.ok := rfl
@[simp] theorem State.powerDown_bus_chipSel : s.powerDown.bus.chipSel = s.bus.chipSel := rfl
@[simp] theorem State.powerDown_bus_abus : s.powerDown.bus.abus = s.bus.abus := rfl
@[simp] theorem State.powerDown_bus_progSel : s.powerDown.bus.progSel = 0x00#8 := rfl
@[simp] theorem State.powerDown_bus_supply : s.powerDown.bus.supply = s.bus.supply := rfl
@[simp] theorem State.powerDown_bus_en : s.powerDown.bus.en = false := rfl
@[simp] theorem State.powerDown_txq : s.powerDown.txq = s.txq := rfl
@[simp] theorem State.powerDown_host : s.powerDown.host = s.host := rfl
@[simp] theorem State.powerDown_chip : s.powerDown.chip = s.chip := rfl

/-! ### `State.powerOff` -/

@[simp] theorem State.powerOff_st : s.powerOff.st = s.st := rfl
@[simp] theorem State.powerOff_command : s.powerOff.command = s.command := rfl
@[simp] theorem State.powerOff_lex : s.powerOff.lex = s.lex := rfl
@[simp] theorem State.powerOff_discard : s.powerOff.discard = s.discard := rfl
@[simp] theorem State.powerOff_busy : s.powerOff.busy = s.busy := rfl
@[simp] theorem State.powerOff_errCause : s.powerOff.errCause = s.errCause := rfl
@[simp] theorem State.powerOff_eng_point : s.powerOff.eng.point = .respond := rfl
@[simp] theorem State.powerOff_eng_existing : s.powerOff.eng.existing = s.eng.existing := rfl
@[simp] theorem State.powerOff_eng_target : s.powerOff.eng.target = s.eng.target := rfl
@[simp] theorem State.powerOff_eng_achieved : s.powerOff.eng.achieved = s.eng.achieved := rfl
@[simp] theorem State.powerOff_eng_bit : s.powerOff.eng.bit = s.eng.bit := rfl
@[simp] theorem State.powerOff_eng_real : s.powerOff.eng.real = s.eng.real := rfl
@[simp] theorem State.powerOff_eng_scanA : s.powerOff.eng.scanA = s.eng.scanA := rfl
@[simp] theorem State.powerOff_eng_tmr : s.powerOff.eng.tmr = s.eng.tmr := rfl
@[simp] theorem State.powerOff_eng_b : s.powerOff.eng.b = s.eng.b := rfl
@[simp] theorem State.powerOff_eng_ok : s.powerOff.eng.ok = s.eng.ok := rfl
@[simp] theorem State.powerOff_bus_chipSel : s.powerOff.bus.chipSel = s.bus.chipSel := rfl
@[simp] theorem State.powerOff_bus_abus : s.powerOff.bus.abus = s.bus.abus := rfl
@[simp] theorem State.powerOff_bus_progSel : s.powerOff.bus.progSel = s.bus.progSel := rfl
@[simp] theorem State.powerOff_bus_supply : s.powerOff.bus.supply = .off := rfl
@[simp] theorem State.powerOff_bus_en : s.powerOff.bus.en = s.bus.en := rfl
@[simp] theorem State.powerOff_txq : s.powerOff.txq = s.txq := rfl
@[simp] theorem State.powerOff_host : s.powerOff.host = s.host := rfl
@[simp] theorem State.powerOff_chip : s.powerOff.chip = s.chip := rfl

/-! ### `State.readAt` -/

@[simp] theorem State.readAt_st (a : CellAddr) : (s.readAt a).st = s.st := rfl
@[simp] theorem State.readAt_command (a : CellAddr) : (s.readAt a).command = s.command := rfl
@[simp] theorem State.readAt_lex (a : CellAddr) : (s.readAt a).lex = s.lex := rfl
@[simp] theorem State.readAt_discard (a : CellAddr) : (s.readAt a).discard = s.discard := rfl
@[simp] theorem State.readAt_busy (a : CellAddr) : (s.readAt a).busy = s.busy := rfl
@[simp] theorem State.readAt_errCause (a : CellAddr) : (s.readAt a).errCause = s.errCause := rfl
@[simp] theorem State.readAt_eng_point (a : CellAddr) : (s.readAt a).eng.point = .readSample := rfl
@[simp] theorem State.readAt_eng_existing (a : CellAddr) : (s.readAt a).eng.existing = s.eng.existing := rfl
@[simp] theorem State.readAt_eng_target (a : CellAddr) : (s.readAt a).eng.target = s.eng.target := rfl
@[simp] theorem State.readAt_eng_achieved (a : CellAddr) : (s.readAt a).eng.achieved = s.eng.achieved := rfl
@[simp] theorem State.readAt_eng_bit (a : CellAddr) : (s.readAt a).eng.bit = s.eng.bit := rfl
@[simp] theorem State.readAt_eng_real (a : CellAddr) : (s.readAt a).eng.real = s.eng.real := rfl
@[simp] theorem State.readAt_eng_scanA (a : CellAddr) : (s.readAt a).eng.scanA = s.eng.scanA := rfl
@[simp] theorem State.readAt_eng_tmr (a : CellAddr) : (s.readAt a).eng.tmr = BitVec.ofNat 32 (Config.nRead - 1) := rfl
@[simp] theorem State.readAt_eng_b (a : CellAddr) : (s.readAt a).eng.b = s.eng.b := rfl
@[simp] theorem State.readAt_eng_ok (a : CellAddr) : (s.readAt a).eng.ok = s.eng.ok := rfl
@[simp] theorem State.readAt_bus_chipSel (a : CellAddr) : (s.readAt a).bus.chipSel = s.bus.chipSel := rfl
@[simp] theorem State.readAt_bus_abus (a : CellAddr) : (s.readAt a).bus.abus = a := rfl
@[simp] theorem State.readAt_bus_progSel (a : CellAddr) : (s.readAt a).bus.progSel = s.bus.progSel := rfl
@[simp] theorem State.readAt_bus_supply (a : CellAddr) : (s.readAt a).bus.supply = s.bus.supply := rfl
@[simp] theorem State.readAt_bus_en (a : CellAddr) : (s.readAt a).bus.en = s.bus.en := rfl
@[simp] theorem State.readAt_txq (a : CellAddr) : (s.readAt a).txq = s.txq := rfl
@[simp] theorem State.readAt_host (a : CellAddr) : (s.readAt a).host = s.host := rfl
@[simp] theorem State.readAt_chip (a : CellAddr) : (s.readAt a).chip = s.chip := rfl

end Sys2Proof.Machine
end

