-- ==== Sys2Proof/Laws/Burn.lean ====
section
/-! SUPPORT. What the tests of the bit loop can find, and what the loop's line leaves alone. -/

namespace Sys2Proof.Machine

/-- The tests of the bit loop find the first position that differs, in whichever way, or none (42_programming_engine.md
R139). -/
theorem nextBit_spec (e t : Byte) : ∀ n i, match nextBit e t n i with
    | .done => ∀ j, i ≤ j → j < i + n → e.getLsbD j = t.getLsbD j
    | .impossible k => i ≤ k ∧ k < i + n ∧ e.getLsbD k = true ∧ t.getLsbD k = false ∧ ∀ j, i ≤ j → j < k → e.getLsbD j = t.getLsbD j
    | .burnable k => i ≤ k ∧ k < i + n ∧ e.getLsbD k = false ∧ t.getLsbD k = true ∧ ∀ j, i ≤ j → j < k → e.getLsbD j = t.getLsbD j := by
  intro n
  induction n with
  | zero => intro i; simp only [nextBit]; intro j h1 h2; omega
  | succ n ih =>
    intro i
    simp only [nextBit]
    by_cases h : e.getLsbD i = t.getLsbD i
    · simp only [h, if_true]
      have := ih (i+1)
      revert this
      cases nextBit e t n (i+1) with
      | done => intro this j h1 h2; rcases Nat.eq_or_lt_of_le h1 with rfl | h3; exact h; exact this j h3 (by omega)
      | impossible k =>
        rintro ⟨a1, a2, a3, a4, a5⟩; refine ⟨by omega, by omega, a3, a4, ?_⟩
        intro j h1 h2; rcases Nat.eq_or_lt_of_le h1 with rfl | h3; exact h; exact a5 j h3 h2
      | burnable k =>
        rintro ⟨a1, a2, a3, a4, a5⟩; refine ⟨by omega, by omega, a3, a4, ?_⟩
        intro j h1 h2; rcases Nat.eq_or_lt_of_le h1 with rfl | h3; exact h; exact a5 j h3 h2
    · simp only [h, if_false]
      cases he : e.getLsbD i with
      | true => simp only [if_true]; refine ⟨by omega, by omega, he, ?_, fun j h1 h2 => by omega⟩; cases ht : t.getLsbD i <;> simp_all
      | false => simp only [Bool.false_eq_true, if_false]; refine ⟨by omega, by omega, he, ?_, fun j h1 h2 => by omega⟩; cases ht : t.getLsbD i <;> simp_all

/-- The line after the tests of the bit loop emits nothing and touches nothing but the burn's registers and the outputs. -/
theorem bitLoop_frame (k : Nat) (s : State) :
    (bitLoop k s).eng.point ≠ .idle ∧ (bitLoop k s).st = s.st ∧ (bitLoop k s).command = s.command ∧
    (bitLoop k s).lex = s.lex ∧ (bitLoop k s).discard = s.discard ∧ (bitLoop k s).busy = s.busy ∧
    (bitLoop k s).errCause = s.errCause ∧ (bitLoop k s).txq = s.txq ∧ (bitLoop k s).host = s.host ∧
    (bitLoop k s).chip = s.chip := by
  unfold bitLoop
  split
  · refine ⟨by simp, rfl, rfl, rfl, rfl, rfl, rfl, rfl, rfl, rfl⟩
  · refine ⟨by simp, rfl, rfl, rfl, rfl, rfl, rfl, rfl, rfl, rfl⟩
  · split <;> refine ⟨by simp, rfl, rfl, rfl, rfl, rfl, rfl, rfl, rfl, rfl⟩

end Sys2Proof.Machine
end

