-- ==== Sys2Proof/Laws/Decode.lean ====
section
/-! SUPPORT. Lines and digits of the request encoding: where a line ends, what a written digit is, and one byte more in a
token. -/

namespace Sys2Proof

/-- A line found in the bytes holds no line feed, and stands before the first one. -/
theorem splitLine_some {bytes line rest : List Byte} (h : splitLine bytes = some (line, rest)) :
    asciiLF ∉ line ∧ bytes = line ++ [asciiLF] ++ rest := by
  induction bytes generalizing line rest with
  | nil => cases h
  | cons c cs ih =>
    simp only [splitLine] at h
    split at h
    · next hc => cases h; subst hc; simp
    · next hc =>
      split at h
      · next l' r' h' =>
        cases h
        obtain ⟨a, b⟩ := ih h'
        exact ⟨by rw [List.mem_cons]; exact fun h => h.elim (fun h => hc h.symm) a, by rw [b]; simp⟩
      · cases h

/-- A line feed after bytes that hold none ends their line. -/
theorem splitLine_append (line rest : List Byte) (h : asciiLF ∉ line) :
    splitLine (line ++ [asciiLF] ++ rest) = some (line, rest) := by
  induction line with
  | nil => simp [splitLine]
  | cons c cs ih =>
    rw [List.mem_cons, not_or] at h
    have := ih h.2
    simp only [List.append_assoc, List.cons_append, List.nil_append, splitLine] at this ⊢
    rw [if_neg (fun hc => h.1 hc.symm), this]

/-- The decoder of a terminated line. -/
theorem decode_line (line rest : List Byte) (h : asciiLF ∉ line) :
    decode (line ++ [asciiLF] ++ rest) = decodeTokens (tokens line) rest := by
  unfold decode
  rw [splitLine_append _ _ h]

/-- A written digit reads back as its value, and is no delimiter and no line feed. -/
theorem digit_reads : ∀ d : BitVec 4, hexDigit? (digit d) = some d.toNat ∧ isDelim (digit d) = false ∧ digit d ≠ asciiLF := by
  decide

theorem cellCount_le (p : Profile) : cellCount p ≤ 512 := by cases p <;> simp [cellCount]

/-- One byte more in a token. -/
theorem Machine.lexToken_append (t : Token) (c : Byte) : Machine.lexToken (t ++ [c]) = (Machine.lexToken t).append c := by
  simp [Machine.lexToken]

end Sys2Proof
end

