-- ==== Sys2Proof/Laws/Memory.lean ====
section
/-! SUPPORT. The laws of the cell array: a read after a write, and the canonical form, which every write keeps. -/

namespace Sys2Proof.Machine

theorem wfFrom_mono {m : Memory} : ∀ {lo lo' : Nat}, lo' ≤ lo → wfFrom lo m = true → wfFrom lo' m = true := by
  cases m with
  | nil => intros; rfl
  | cons e rest =>
    intro lo lo' hle h
    simp only [wfFrom, Bool.and_eq_true, decide_eq_true_eq] at h ⊢
    exact ⟨⟨⟨by omega, h.1.1.2⟩, h.1.2⟩, h.2⟩

theorem readCell_consCell (m : Memory) (a b : Nat) (v : Byte) (h : b = a → readCell m a = blankByte) :
    readCell (consCell a v m) b = if b = a then v else readCell m b := by
  unfold consCell
  split
  · next hv =>
    split
    · next hb => rw [hb, h hb, hv]
    · rfl
  · simp only [readCell]

/-- Below the least listed cell number a canonical memory reads blank. -/
theorem readCell_below {m : Memory} : ∀ {lo a : Nat}, wfFrom lo m = true → a < lo → readCell m a = blankByte := by
  induction m with
  | nil => intros; rfl
  | cons e rest ih =>
    intro lo a h ha
    simp only [wfFrom, Bool.and_eq_true, decide_eq_true_eq] at h
    have hne : a ≠ e.1 := by omega
    simp only [readCell, hne, if_false]
    exact ih h.2 (by omega)

theorem wfFrom_consCell {m : Memory} {lo a : Nat} {v : Byte} (hlo : lo ≤ a) (ha : a < 512)
    (h : wfFrom (a + 1) m = true) : wfFrom lo (consCell a v m) = true := by
  unfold consCell
  split
  · exact wfFrom_mono (by omega) h
  · next hv => simp [wfFrom, hlo, ha, hv, h]

/-- Reading after a write: the written cell gives the value written, every other cell what it gave before. -/
theorem readCell_writeCell {m : Memory} : ∀ {lo : Nat} (a b : Nat) (v : Byte), wfFrom lo m = true →
    readCell (writeCell m a v) b = if b = a then v else readCell m b := by
  induction m with
  | nil =>
    intro lo a b v _
    exact readCell_consCell [] a b v (fun _ => rfl)
  | cons e rest ih =>
    intro lo a b v h
    have h' := h
    simp only [wfFrom, Bool.and_eq_true, decide_eq_true_eq] at h'
    simp only [writeCell]
    split
    · next hlt =>
      refine readCell_consCell _ a b v (fun _ => ?_)
      have hle : a + 1 ≤ e.1 := hlt
      refine readCell_below (lo := a + 1) ?_ (by omega)
      simp only [wfFrom, Bool.and_eq_true, decide_eq_true_eq]
      exact ⟨⟨⟨hle, h'.1.1.2⟩, h'.1.2⟩, h'.2⟩
    · split
      · next _ heq =>
        subst heq
        rw [readCell_consCell rest _ b v (fun _ => readCell_below h'.2 (by omega))]
        simp only [readCell]
        by_cases hb : b = e.1 <;> simp [hb]
      · next _ hne =>
        simp only [readCell]
        by_cases hb : b = e.1
        · have hba : b ≠ a := fun hc => hne (hc ▸ hb ▸ rfl)
          simp [hb, show e.1 ≠ a from fun hc => hne hc.symm]
        · simp only [hb, if_false]
          exact ih a b v h'.2

/-- A write at a cell number of the address space keeps the canonical form. -/
theorem wfFrom_writeCell {m : Memory} : ∀ {lo a : Nat} (v : Byte), lo ≤ a → a < 512 → wfFrom lo m = true →
    wfFrom lo (writeCell m a v) = true := by
  induction m with
  | nil => intro lo a v hlo ha _; exact wfFrom_consCell hlo ha rfl
  | cons e rest ih =>
    intro lo a v hlo ha h
    have h' := h
    simp only [wfFrom, Bool.and_eq_true, decide_eq_true_eq] at h'
    simp only [writeCell]
    split
    · next hlt =>
      refine wfFrom_consCell hlo ha ?_
      simp only [wfFrom, Bool.and_eq_true, decide_eq_true_eq]
      exact ⟨⟨⟨hlt, h'.1.1.2⟩, h'.1.2⟩, h'.2⟩
    · split
      · next _ heq => subst heq; exact wfFrom_consCell hlo ha h'.2
      · next hnlt hne =>
        simp only [wfFrom, Bool.and_eq_true, decide_eq_true_eq]
        exact ⟨h'.1, ih v (by omega) ha h'.2⟩

/-- `writeCell` keeps `Memory.wf`. -/
theorem writeCell_wf {m : Memory} {a : Nat} (v : Byte) (ha : a < 512) (h : m.wf = true) : (writeCell m a v).wf = true :=
  wfFrom_writeCell v (Nat.zero_le a) ha h

/-- The memory of the reset state has the canonical form. -/
theorem reset_cells_wf : State.reset.chip.cells.wf = true := rfl

/-- Everything the programming rule can do to the cells (20_memory.md R51): the addressed cell keeps its byte or gets the
driven lines set; every other cell keeps its byte. -/
theorem Chip.burn_readCell (c : Chip) (b : Bus) (h : c.cells.wf = true) (a : Nat) :
    readCell (c.burn b).cells a =
      if a = b.abus.toNat then
        (if Config.fuseBlows c.draws then readCell c.cells b.abus.toNat ||| b.progSel else readCell c.cells b.abus.toNat)
      else readCell c.cells a := by
  unfold Chip.burn
  exact readCell_writeCell _ _ _ h

theorem Chip.burn_wf (c : Chip) (b : Bus) (h : c.cells.wf = true) : (c.burn b).cells.wf = true :=
  writeCell_wf _ b.abus.isLt h

theorem Chip.burn_draws (c : Chip) (b : Bus) : (c.burn b).draws = c.draws + 1 := rfl
theorem Chip.burn_socket (c : Chip) (b : Bus) : (c.burn b).socket = c.socket := rfl

@[simp] theorem Chip.unchanged_cells (c : Chip) : c.unchanged.cells = c.cells := rfl
@[simp] theorem Chip.unchanged_socket (c : Chip) : c.unchanged.socket = c.socket := rfl
@[simp] theorem Chip.unchanged_stage (c : Chip) : c.unchanged.stage = c.stage := rfl
@[simp] theorem Chip.unchanged_draws (c : Chip) : c.unchanged.draws = c.draws := rfl
@[simp] theorem Chip.unchanged_held (c : Chip) : c.unchanged.held = c.held + 1 := rfl
@[simp] theorem Chip.toStage_cells (c : Chip) (g : Stage) : (c.toStage g).cells = c.cells := rfl
@[simp] theorem Chip.toStage_socket (c : Chip) (g : Stage) : (c.toStage g).socket = c.socket := rfl
@[simp] theorem Chip.toStage_stage (c : Chip) (g : Stage) : (c.toStage g).stage = g := rfl
@[simp] theorem Chip.toStage_draws (c : Chip) (g : Stage) : (c.toStage g).draws = c.draws := rfl
@[simp] theorem Chip.toStage_held (c : Chip) (g : Stage) : (c.toStage g).held = 1 := rfl

end Sys2Proof.Machine
end

