-- ==== Sys2Proof/Laws/Ops.lean ====
section
/-! SUPPORT. What each shared operation can do, said once: the engine's wrapper, a sample, the chip, the end of a step, the
parts of a step. Later proofs cite these lemmas instead of unfolding the operations. -/

namespace Sys2Proof.Machine

/-! ### Parts of a step -/

@[simp] theorem andThen_next (s : State) (f : State → Result) : andThen (.next s) f = f s := rfl
@[simp] theorem andThen_fault (e : Fault) (f : State → Result) : andThen (.fault e) f = .fault e := rfl
@[simp] theorem andThen_refused (e : Refusal) (f : State → Result) : andThen (.refused e) f = .refused e := rfl

/-- One part after another answers a next state only through a next state of the first. -/
theorem andThen_cases {r : Result} {f : State → Result} {t : State} (h : andThen r f = .next t) :
    ∃ u, r = .next u ∧ f u = .next t := by
  cases r with
  | next u => exact ⟨u, rfl, h⟩
  | fault e => cases h
  | refused e => cases h

theorem endStep_cases {s u t : State} (h : State.endStep s u = .next t) :
    ∃ c, u.chip.observe s.bus u.bus = .ok c ∧ t = State.nextPorts { State.moveQueue s u with chip := c } := by
  unfold State.endStep at h
  split at h
  · next c hc => exact ⟨c, hc, (Host.Outcome.next.inj h).symm⟩
  · cases h

/-- What a clock cycle can do: a reset, or the block's part with the queue, the chip and the inputs after it. -/
theorem step_cases {s t : State} (h : step s = .next t) :
    (s.portsNow.rst = true ∧ t = s.resetStep) ∨
    (s.portsNow.rst = false ∧ ∃ u c, blockStep s = .next u ∧ u.chip.observe s.bus u.bus = .ok c ∧
      t = State.nextPorts { State.moveQueue s u with chip := c }) := by
  unfold step clockStep at h
  split at h
  · next hr => exact .inl ⟨hr, (Host.Outcome.next.inj h).symm⟩
  · next hr =>
    obtain ⟨u, hu, ht⟩ := andThen_cases h
    obtain ⟨c, hc, ht⟩ := endStep_cases ht
    exact .inr ⟨by simpa using hr, u, c, hu, hc, ht⟩

/-- A clock cycle with no reset answers a next state when the block's part does and the chip allows what it sees. -/
theorem step_eq {s u : State} {c : Chip} (hr : s.portsNow.rst = false) (hu : blockStep s = .next u)
    (hc : u.chip.observe s.bus u.bus = .ok c) :
    step s = .next (State.nextPorts { State.moveQueue s u with chip := c }) := by
  simp only [step, clockStep, hr, hu, andThen_next, State.endStep, hc, Bool.false_eq_true, if_false]

/-- What the block's own part can do. -/
theorem blockStep_cases {s u : State} (h : blockStep s = .next u) :
    (s.eng.point = .idle ∧ s.accepted = none ∧ u = s) ∨
    (s.eng.point = .idle ∧ ∃ c, s.accepted = some c ∧ byteStep c s.acceptByte = .next u) ∨
    (s.eng.point ≠ .idle ∧ ∃ i, s.command.live = some i ∧ exec i s = .next u) := by
  unfold blockStep at h
  by_cases hi : s.engineIdle = true
  · have hp : s.eng.point = .idle := by simpa [State.engineIdle] using hi
    simp only [hi, if_true] at h
    cases ha : s.accepted with
    | none => rw [ha] at h; exact .inl ⟨hp, rfl, (Host.Outcome.next.inj h).symm⟩
    | some c => rw [ha] at h; exact .inr (.inl ⟨hp, c, rfl, h⟩)
  · have hp : s.eng.point ≠ .idle := by simpa [State.engineIdle] using hi
    simp only [hi, if_false, Bool.false_eq_true] at h
    refine .inr (.inr ⟨hp, ?_⟩)
    unfold engineStep at h
    cases hl : s.command.live with
    | none => rw [hl] at h; cases h
    | some i => rw [hl] at h; exact ⟨i, rfl, h⟩

/-! ### The engine's wrapper -/

theorem runCommand_idle {first : Point} {line : Point → State → Result} {s : State} (h : s.eng.point = .idle) :
    s.runCommand first line = .next (s.start first) := by
  simp only [State.runCommand, h]

theorem runCommand_wait {first : Point} {line : Point → State → Result} {s : State} (h : s.eng.point ≠ .idle)
    (ht : s.eng.tmr ≠ 0#32) : s.runCommand first line = .next s.tick := by
  unfold State.runCommand
  split
  · next hp => exact absurd hp h
  · simp [ht]

theorem runCommand_line {first : Point} {line : Point → State → Result} {s : State} (h : s.eng.point ≠ .idle)
    (ht : s.eng.tmr = 0#32) : s.runCommand first line = line s.eng.point s := by
  unfold State.runCommand
  split
  · next hp => exact absurd hp h
  · simp [ht]

/-- What a command's clock step can do: start, count a wait down, or run the line at its point. -/
theorem runCommand_cases {first : Point} {line : Point → State → Result} {s u : State}
    (h : s.runCommand first line = .next u) :
    (s.eng.point = .idle ∧ u = s.start first) ∨
    (s.eng.point ≠ .idle ∧ s.eng.tmr ≠ 0#32 ∧ u = s.tick) ∨
    (s.eng.point ≠ .idle ∧ s.eng.tmr = 0#32 ∧ line s.eng.point s = .next u) := by
  by_cases hp : s.eng.point = .idle
  · rw [runCommand_idle hp] at h; exact .inl ⟨hp, (Host.Outcome.next.inj h).symm⟩
  · by_cases ht : s.eng.tmr = 0#32
    · rw [runCommand_line hp ht] at h; exact .inr (.inr ⟨hp, ht, h⟩)
    · rw [runCommand_wait hp ht] at h; exact .inr (.inl ⟨hp, ht, (Host.Outcome.next.inj h).symm⟩)

/-! ### The chip -/

/-- What a sample can give: a byte, with at most the counter of free values moved on; the cells and what the chip has seen
stay. -/
theorem answer_cases {c c' : Chip} {bus : Bus} {b : Byte} (h : c.answer bus = .ok (b, c')) :
    (c.readConditions bus = true ∧ addrInRange bus.chipSel bus.abus = true ∧ c' = c ∧
      b = readCell c.cells bus.abus.toNat) ∨
    (c.readConditions bus = false ∧ c' = { c with draws := c.draws + 1 } ∧ b = Config.strayByte c.draws) := by
  unfold Chip.answer at h
  split at h
  · next hr =>
    split at h
    · next ha => cases h; exact .inl ⟨hr, ha, rfl, rfl⟩
    · cases h
  · next hr => cases h; exact .inr ⟨by simpa using hr, rfl, rfl⟩

theorem sampleBus_cases {s u : State} {line : Byte → State → State} (h : s.sampleBus line = .next u) :
    ∃ b c, s.chip.answer s.bus = .ok (b, c) ∧ u = line b { s with chip := c } := by
  unfold State.sampleBus at h
  split at h
  · next b c hc => exact ⟨b, c, hc, (Host.Outcome.next.inj h).symm⟩
  · cases h

/-- Where the read conditions of 20_memory.md R50 hold, the sample is the addressed cell. -/
theorem sampleBus_good {s : State} {line : Byte → State → State} (hr : s.chip.readConditions s.bus = true)
    (ha : addrInRange s.bus.chipSel s.bus.abus = true) :
    s.sampleBus line = .next (line (readCell s.chip.cells s.bus.abus.toNat) s) := by
  simp only [State.sampleBus, Chip.answer, hr, ha, if_true]

/-- Where the outputs have not changed, only the count of cycles moves on. -/
theorem observe_same {c : Chip} {b : Bus} : c.observe b b = .ok c.unchanged := by simp [Chip.observe]

/-- Outside a programming sequence every change of the outputs is seen and changes nothing else. -/
theorem observe_quiet {c : Chip} {old new : Bus} (hs : c.stage = .quiet) (hq : new.outsideSequence = true) :
    c.observe old new = .ok (if new = old then c.unchanged else c.toStage .quiet) := by
  by_cases hn : new = old <;> simp [Chip.observe, Chip.change, hn, hs, hq]

/-- A change a programming sequence allows moves it on (20_memory.md R51, 42_programming_engine.md R135). -/
theorem observe_advance {c : Chip} {old new : Bus} (hn : new ≠ old) (hq : (c.stage = .quiet ∧ new.outsideSequence = true) → False)
    (ha : c.stage.allows c.held old new = true) : c.observe old new = c.advance old new := by
  have hq' : (decide (c.stage = .quiet) && new.outsideSequence) = false := by
    cases hx : (decide (c.stage = .quiet) && new.outsideSequence) with
    | false => rfl
    | true => simp only [Bool.and_eq_true, decide_eq_true_eq] at hx; exact absurd hx hq
  simp [Chip.observe, Chip.change, hn, hq', ha]

/-- A programming sequence starts on a cell that exists, in a chip of the selected profile. -/
theorem beginSequence_cases {c c' : Chip} {new : Bus} (h : c.beginSequence new = .ok c') :
    addrInRange new.chipSel new.abus = true ∧ c.socket.matches new.chipSel = true ∧ c' = c.toStage .selected := by
  unfold Chip.beginSequence at h
  split at h
  · cases h
  · next ha =>
    split at h
    · next hm => cases h; exact ⟨by simpa using ha, hm, rfl⟩
    · cases h

theorem beginSequence_eq {c : Chip} {new : Bus} (ha : addrInRange new.chipSel new.abus = true)
    (hm : c.socket.matches new.chipSel = true) : c.beginSequence new = .ok (c.toStage .selected) := by
  simp [Chip.beginSequence, ha, hm]

theorem change_cases {c c' : Chip} {old new : Bus} (h : c.change old new = .ok c') :
    (c.stage = .quiet ∧ new.outsideSequence = true ∧ c' = c.toStage .quiet) ∨
    (c.stage.allows c.held old new = true ∧ c.advance old new = .ok c') := by
  unfold Chip.change at h
  split at h
  · next hq =>
    simp only [Bool.and_eq_true, decide_eq_true_eq] at hq
    cases h; exact .inl ⟨hq.1, hq.2, rfl⟩
  · split at h
    · next ha => exact .inr ⟨ha, h⟩
    · cases h

/-- What the chip can do at the end of a step with no reset: nothing changes but the count of cycles, or the outputs
changed and the chip is in a stage of R135 in its order; the cells change only at the end of a programming sequence. -/
theorem observe_cases {c c' : Chip} {old new : Bus} (h : c.observe old new = .ok c') :
    (new = old ∧ c' = c.unchanged) ∨
    (new ≠ old ∧ c.stage = .dropped ∧ new = { old with progSel := 0x00#8 } ∧ c' = (c.burn old).toStage .quiet) ∨
    (new ≠ old ∧ ∃ g, c' = c.toStage g) := by
  unfold Chip.observe at h
  split at h
  · next he => cases h; exact .inl ⟨he, rfl⟩
  · next he =>
    obtain ⟨-, -, rfl⟩ | ⟨ha, hv⟩ := change_cases h
    · exact .inr (.inr ⟨he, _, rfl⟩)
    · unfold Chip.advance Chip.beginSequence at hv
      split at hv
      · split at hv
        · cases hv
        · split at hv <;> cases hv
          exact .inr (.inr ⟨he, _, rfl⟩)
      · cases hv; exact .inr (.inr ⟨he, _, rfl⟩)
      · cases hv; exact .inr (.inr ⟨he, _, rfl⟩)
      · cases hv; exact .inr (.inr ⟨he, _, rfl⟩)
      · cases hv; exact .inr (.inr ⟨he, _, rfl⟩)
      · next hd =>
        cases hv
        simp only [hd, Stage.allows, decide_eq_true_eq] at ha
        exact .inr (.inl ⟨he, hd, ha, rfl⟩)

/-- The chip's canonical form is kept by what it sees. -/
theorem observe_wf {c c' : Chip} {old new : Bus} (h : c.observe old new = .ok c') (hw : c.cells.wf = true) :
    c'.cells.wf = true := by
  obtain ⟨-, rfl⟩ | ⟨-, -, -, rfl⟩ | ⟨-, g, rfl⟩ := observe_cases h
  · exact hw
  · exact c.burn_wf old hw
  · exact hw

theorem cutByReset_wf {c : Chip} {old : Bus} (hw : c.cells.wf = true) : (c.cutByReset old).cells.wf = true := by
  unfold Chip.cutByReset
  split
  · exact hw
  · exact c.burn_wf old hw

/-- The canonical form is kept by every step. -/
theorem answer_cells {c c' : Chip} {bus : Bus} {b : Byte} (h : c.answer bus = .ok (b, c')) : c'.cells = c.cells := by
  obtain ⟨-, -, rfl, -⟩ | ⟨-, rfl, -⟩ := answer_cases h <;> rfl

/-! ### The output queue and `busy` -/

@[simp] theorem settleBusy_st (s : State) : s.settleBusy.st = s.st := by unfold State.settleBusy; split <;> rfl
@[simp] theorem settleBusy_command (s : State) : s.settleBusy.command = s.command := by
  unfold State.settleBusy; split <;> rfl
@[simp] theorem settleBusy_lex (s : State) : s.settleBusy.lex = s.lex := by unfold State.settleBusy; split <;> rfl
@[simp] theorem settleBusy_discard (s : State) : s.settleBusy.discard = s.discard := by
  unfold State.settleBusy; split <;> rfl
@[simp] theorem settleBusy_errCause (s : State) : s.settleBusy.errCause = s.errCause := by
  unfold State.settleBusy; split <;> rfl
@[simp] theorem settleBusy_eng (s : State) : s.settleBusy.eng = s.eng := by unfold State.settleBusy; split <;> rfl
@[simp] theorem settleBusy_bus (s : State) : s.settleBusy.bus = s.bus := by unfold State.settleBusy; split <;> rfl
@[simp] theorem settleBusy_txq (s : State) : s.settleBusy.txq = s.txq := by unfold State.settleBusy; split <;> rfl
@[simp] theorem settleBusy_host (s : State) : s.settleBusy.host = s.host := by unfold State.settleBusy; split <;> rfl
@[simp] theorem settleBusy_chip (s : State) : s.settleBusy.chip = s.chip := by unfold State.settleBusy; split <;> rfl

@[simp] theorem moveQueue_st (b s : State) : (State.moveQueue b s).st = s.st := by
  unfold State.moveQueue; split <;> simp
@[simp] theorem moveQueue_command (b s : State) : (State.moveQueue b s).command = s.command := by
  unfold State.moveQueue; split <;> simp
@[simp] theorem moveQueue_lex (b s : State) : (State.moveQueue b s).lex = s.lex := by
  unfold State.moveQueue; split <;> simp
@[simp] theorem moveQueue_discard (b s : State) : (State.moveQueue b s).discard = s.discard := by
  unfold State.moveQueue; split <;> simp
@[simp] theorem moveQueue_errCause (b s : State) : (State.moveQueue b s).errCause = s.errCause := by
  unfold State.moveQueue; split <;> simp
@[simp] theorem moveQueue_eng (b s : State) : (State.moveQueue b s).eng = s.eng := by
  unfold State.moveQueue; split <;> simp
@[simp] theorem moveQueue_bus (b s : State) : (State.moveQueue b s).bus = s.bus := by
  unfold State.moveQueue; split <;> simp
@[simp] theorem moveQueue_chip (b s : State) : (State.moveQueue b s).chip = s.chip := by
  unfold State.moveQueue; split <;> simp
@[simp] theorem moveQueue_rx (b s : State) : (State.moveQueue b s).host.rx = s.host.rx := by
  unfold State.moveQueue; split <;> simp
@[simp] theorem moveQueue_ports (b s : State) : (State.moveQueue b s).host.ports = s.host.ports := by
  unfold State.moveQueue; split <;> simp

/-- Emitted bytes are never reordered, dropped or duplicated by the queue's move (10_state.md R42). -/
theorem moveQueue_output (b s : State) : (State.moveQueue b s).output = s.output := by
  unfold State.moveQueue
  split
  · simp only [State.output, settleBusy_host, settleBusy_txq, State.takeTx_host_taken, State.takeTx_txq]
    cases s.txq <;> simp
  · rfl

/-- `busy` after the queue's move, where it stood at the value of R35 for the queue before the move. -/
theorem moveQueue_busy {b s : State} (h : s.busy = !(s.engineIdle && s.txq.isEmpty)) :
    (State.moveQueue b s).busy = !((State.moveQueue b s).engineIdle && (State.moveQueue b s).txq.isEmpty) := by
  unfold State.moveQueue
  split
  · unfold State.settleBusy
    by_cases he : (s.takeTx.txq.isEmpty && s.takeTx.engineIdle) = true
    · simp only [he, if_true]
      simp only [Bool.and_eq_true, State.engineIdle, decide_eq_true_eq, State.takeTx_txq, List.isEmpty_iff] at he
      have hp : s.eng.point = .idle := he.2
      simp [State.engineIdle, he.1, hp]
    · simp only [he, if_false, Bool.false_eq_true]
      have h2 : s.takeTx.busy = s.busy := rfl
      rw [h2, h]
      have h3 : s.takeTx.engineIdle = s.engineIdle := rfl
      rw [h3] at he ⊢
      simp only [State.takeTx_txq] at he ⊢
      cases hq : s.txq <;> cases hi : s.engineIdle <;> simp_all
  · exact h

end Sys2Proof.Machine
end

