-- ==== Sys2Proof/Laws/PerInstr.lean ====
section
/-! SUPPORT. Statements over all instructions, one lemma per constructor. The family `F`: the request an instruction is
written as is one line, its line feed the last byte (30_encoding.md R77, R93). -/

namespace Sys2Proof.Laws

theorem digit_ne (d : BitVec 4) : asciiLF ≠ digit d := by revert d; decide

theorem chip_ne (p : Profile) : asciiLF ≠ chipToken p := by cases p <;> decide

theorem hex3_no (v : BitVec 12) : asciiLF ∉ hex3 v := by
  simp only [hex3, List.mem_cons, List.not_mem_nil, or_false, not_or]
  exact ⟨digit_ne _, digit_ne _, digit_ne _⟩

theorem hex2_no (v : Byte) : asciiLF ∉ hex2 v := by
  simp only [hex2, List.mem_cons, List.not_mem_nil, or_false, not_or]
  exact ⟨digit_ne _, digit_ne _⟩

namespace F

/-- Before the line feed that ends it, the request of an instruction holds none. -/
def Statement (i : Instr) : Prop := asciiLF ∉ i.commandByte :: encodeFields i

theorem version : Statement .version := by unfold Statement; decide

theorem readAll (chip : Profile) : Statement (.readAll chip) := by cases chip <;> (unfold Statement; decide)

theorem blankCheck (chip : Profile) : Statement (.blankCheck chip) := by cases chip <;> (unfold Statement; decide)

theorem readByte (chip : Profile) (addr : CellAddr) : Statement (.readByte chip addr) := by
  simp only [Statement, Instr.commandByte, encodeFields, List.mem_cons, List.mem_append, List.not_mem_nil, or_false, not_or]
  exact ⟨by decide, ⟨by decide, chip_ne chip, by decide⟩, hex3_no _⟩

theorem program (chip : Profile) (addr : CellAddr) (value : Byte) : Statement (.program chip addr value) := by
  simp only [Statement, Instr.commandByte, encodeFields, List.mem_cons, List.mem_append, List.not_mem_nil, or_false, not_or]
  exact ⟨by decide, ⟨⟨⟨by decide, chip_ne chip, by decide⟩, hex3_no _⟩, by decide⟩, hex2_no _⟩

theorem simulate (chip : Profile) (addr : CellAddr) (value : Byte) : Statement (.simulate chip addr value) := by
  simp only [Statement, Instr.commandByte, encodeFields, List.mem_cons, List.mem_append, List.not_mem_nil, or_false, not_or]
  exact ⟨by decide, ⟨⟨⟨by decide, chip_ne chip, by decide⟩, hex3_no _⟩, by decide⟩, hex2_no _⟩

end F

end Sys2Proof.Laws
end

