-- ==== Sys2Proof/Laws/Runs.lean ====
section
/-! SUPPORT. Runs of cycles: one more cycle, one cycle after another run, and the input levels of a run with no reset. -/

namespace Sys2Proof.Machine

@[simp] theorem runs_zero (s : State) : runs 0 s = .next s := rfl

/-- A run after one cycle. -/
theorem runs_succ {n : Nat} {s t : State} (h : step s = .next t) : runs (n + 1) s = runs n t := by
  have hs : core.step s = .next t := h
  simp only [runs, Host.Core.run, hs]
  rfl

/-- A run that answers a next state began with a cycle that does. -/
theorem runs_succ_cases {n : Nat} {s t : State} (h : runs (n + 1) s = .next t) :
    ∃ u, step s = .next u ∧ runs n u = .next t := by
  cases hs : step s with
  | next u => exact ⟨u, rfl, by rw [← runs_succ hs]; exact h⟩
  | fault e =>
    have hs : core.step s = .fault e := hs
    simp only [runs, Host.Core.run, hs] at h
    cases h
  | refused e =>
    have hs : core.step s = .refused e := hs
    simp only [runs, Host.Core.run, hs] at h
    cases h

/-- One run after another. -/
theorem runs_add {n m : Nat} {s t : State} (h : runs n s = .next t) : runs (n + m) s = runs m t := by
  induction n generalizing s with
  | zero => cases h; simp
  | succ n ih =>
    obtain ⟨u, hu, h'⟩ := runs_succ_cases h
    rw [show n + 1 + m = (n + m) + 1 by omega, runs_succ hu]
    exact ih h'

/-- With no reset to come, none comes now. -/
theorem noReset_now {s : State} (h : s.noReset) : s.portsNow.rst = false := by
  unfold State.portsNow
  cases hp : s.host.ports with
  | nil => rfl
  | cons p ps => exact h p (by rw [hp]; simp)

/-- With no reset to come, none comes after this cycle's levels. -/
theorem noReset_tail {s t : State} (h : s.noReset) (ht : t.host.ports = s.host.ports.tail) : t.noReset := by
  intro p hp
  rw [ht] at hp
  exact h p (List.mem_of_mem_tail hp)

end Sys2Proof.Machine
end

