-- ==== Sys2Proof/Tests/Slice0.lean ====
section
/-! SUPPORT. Tests: ill-formed terms, decoding against the words of 30_encoding.md and the vectors of 95_test_vectors.md,
single steps, and for each statement with hypotheses a state and operands that meet them. -/

namespace Sys2Proof.Tests

open Sys2Proof Sys2Proof.Machine

/-! ### Well-formedness -/

/-- 30_encoding.md R76, vector P4. -/
theorem test_readByte_ill_formed : Instr.wellFormed (.readByte .p256 0x100#9) = false := by decide
theorem test_program_ill_formed : Instr.wellFormed (.program .p256 0x1FF#9 0xFF#8) = false := by decide
theorem test_simulate_ill_formed : Instr.wellFormed (.simulate .p256 0x100#9 0x00#8) = false := by decide
/-- The last cell of each profile (vectors P5, P15). -/
theorem test_last_cells_well_formed :
    Instr.wellFormed (.readByte .p512 0x1FF#9) = true ∧ Instr.wellFormed (.program .p256 0x0FF#9 0x00#8) = true := by
  decide

/-! ### Decoding, from bytes written out -/

/-- Vector P1. -/
theorem test_decode_version : decode [0x56, 0x0A] = .request .version [] := by decide
/-- Vectors RD1, RD2. -/
theorem test_decode_readAll : decode [0x52, 0x20, 0x30, 0x0A] = .request (.readAll .p256) [] ∧
    decode [0x52, 0x20, 0x31, 0x0A] = .request (.readAll .p512) [] := by decide
/-- Vector BK1. -/
theorem test_decode_blankCheck : decode [0x4B, 0x20, 0x31, 0x0A] = .request (.blankCheck .p512) [] := by decide
/-- Vectors P5, P15, P22. -/
theorem test_decode_readByte :
    decode [0x72, 0x20, 0x31, 0x20, 0x31, 0x46, 0x46, 0x0A] = .request (.readByte .p512 0x1FF#9) [] ∧
    decode [0x72, 0x20, 0x30, 0x20, 0x66, 0x66, 0x0A] = .request (.readByte .p256 0x0FF#9) [] ∧
    decode [0x20, 0x20, 0x72, 0x20, 0x30, 0x20, 0x35, 0x0D, 0x0A] = .request (.readByte .p256 0x005#9) [] := by decide
/-- Vector W9 at address 0x10. -/
theorem test_decode_program : decode [0x77, 0x20, 0x30, 0x20, 0x31, 0x30, 0x20, 0x35, 0x35, 0x0A] =
    .request (.program .p256 0x010#9 0x55#8) [] := by decide
/-- `s 0 0 01` (41_commands.md R124). -/
theorem test_decode_simulate : decode [0x73, 0x20, 0x30, 0x20, 0x30, 0x20, 0x30, 0x31, 0x0A] =
    .request (.simulate .p256 0x000#9 0x01#8) [] := by decide
/-- Vector P20: ten digits `F`. -/
theorem test_decode_long_address :
    decode [0x72, 0x20, 0x30, 0x20, 0x46, 0x46, 0x46, 0x46, 0x46, 0x46, 0x46, 0x46, 0x46, 0x46, 0x0A] =
      .malformed .range [] := by decide
/-- Vectors P2, P9, P10, P16, P18. -/
theorem test_decode_noRule :
    decode [0x58, 0x0A] = .malformed .noRule [] ∧ decode [0x72, 0x20, 0x30, 0x0A] = .malformed .noRule [] ∧
    decode [0x72, 0x20, 0x30, 0x20, 0x31, 0x30, 0x20, 0x35, 0x0A] = .malformed .noRule [] ∧
    decode [0x56, 0x20, 0x30, 0x0A] = .malformed .noRule [] ∧
    decode [0x77, 0x20, 0x30, 0x20, 0x31, 0x30, 0x0A] = .malformed .noRule [] := by decide
/-- Vectors P12, P3, P19, P24, P6, P7. -/
theorem test_decode_causes :
    decode [0x52, 0x52, 0x20, 0x30, 0x0A] = .malformed .badCmd [] ∧
    decode [0x52, 0x20, 0x32, 0x0A] = .malformed .badChip [] ∧
    decode [0x4B, 0x20, 0x30, 0x30, 0x0A] = .malformed .badChip [] ∧
    decode [0x77, 0x20, 0x30, 0x20, 0x31, 0x47, 0x20, 0x30, 0x30, 0x0A] = .malformed .badHex [] ∧
    decode [0x72, 0x20, 0x31, 0x20, 0x32, 0x30, 0x30, 0x0A] = .malformed .range [] ∧
    decode [0x77, 0x20, 0x30, 0x20, 0x31, 0x30, 0x20, 0x31, 0x30, 0x30, 0x0A] = .malformed .range [] := by decide
/-- Vector P11. -/
theorem test_decode_empty : decode [0x20, 0x09, 0x0D, 0x0A] = .emptyLine [] := by decide
/-- The six table words. -/
theorem test_table_words :
    [0x56, 0x52, 0x4B, 0x72, 0x77, 0x73].map (decodeTableWord 8) =
      [some .version, some (.readAll .p256), some (.blankCheck .p256), some (.readByte .p256 0#9),
       some (.program .p256 0#9 0#8), some (.simulate .p256 0#9 0#8)] := by decide

/-! ### Single steps -/

/-- A check of the state a step answers. -/
def after (r : Result) (check : State → Bool) : Bool :=
  match r with
  | .next t => check t
  | .fault _ => false
  | .refused _ => false

/-- The state in which the engine has come to the point `p` of `i`, cell 0x000 or the command's, bit 0 to be burnt. -/
def atLine (i : Instr) (p : Point) : State :=
  { State.reset with
    st := .executing
    command := (State.reset.holding i).command
    busy := true
    eng := { resetEngine with point := p, target := 0x01#8, real := programs i }
    bus :=
      { chipSel := profileOf i, abus := cellOf i 0#10,
        progSel := if p.stageAt = .quiet then 0x00#8 else onehot8 0, supply := p.supplyAt, en := p.enableAt }
    chip := { State.reset.chip with held := (p.delay).getD 1, stage := p.stageAt } }

/-- The host offers these bytes, right after reset. -/
def offered (bytes : List Byte) : State :=
  { State.reset with host := { ports := [], rx := bytes, taken := [] } }

/-- `w` on a cell of `P256`. -/
def burn : Instr := .program .p256 0x02A#9 0x01#8
/-- `s` on the same cell. -/
def dryRun : Instr := .simulate .p256 0x02A#9 0x01#8
/-- `r` of the last cell of `P512`. -/
def readLast : Instr := .readByte .p512 0x1FF#9

theorem test_version_responds :
    after (exec .version (atLine .version .respond)) (fun t => t.st = .ready ∧ t.txq.length = 11 ∧
      t.txq.drop 6 = [0x0D, 0x0A, 0x52, 0x0D, 0x0A]) = true := by decide

/-- 41_commands.md R118: two digits, upper case. -/
theorem test_readAll_emits :
    after (exec (.readAll .p256) ((atLine (.readAll .p256) .scanEmit).setB 0xA0#8))
      (fun t => t.txq = [0x41, 0x30] ∧ t.eng.point = .scanNext) = true := by decide

/-- The scan of `P256` ends after cell 0xFF, that of `P512` goes on. -/
theorem test_readAll_last :
    after (exec (.readAll .p256) ((atLine (.readAll .p256) .scanNext).setScan 255#10)) (fun t => t.eng.point = .powerOff) ∧
    after (exec (.readAll .p512) ((atLine (.readAll .p512) .scanNext).setScan 255#10))
      (fun t => t.bus.abus = 0x100#9 ∧ t.eng.point = .readSample) := by decide

/-- 41_commands.md R120: the scan stops at a byte that is not blank, its address kept. -/
theorem test_blankCheck_stops :
    after (exec (.blankCheck .p256) (((atLine (.blankCheck .p256) .blankTest).setB 0x80#8).setScan 7#10))
      (fun t => t.eng.point = .powerOff ∧ t.eng.scanA = 7#10 ∧ t.bus.en = false) = true := by decide

/-- Vector BK1: `K 1` on a blank chip answers `200`. -/
theorem test_blankCheck_count :
    after (exec (.blankCheck .p512) ((atLine (.blankCheck .p512) .respond).setScan 512#10))
      (fun t => t.txq = [0x32, 0x30, 0x30, 0x0D, 0x0A, 0x52, 0x0D, 0x0A]) = true := by decide

theorem test_readByte_address :
    after (exec readLast (atLine readLast .readAddr)) (fun t => t.bus.abus = 0x1FF#9 ∧ t.eng.point = .readSample) = true := by
  decide

/-- Vector RD3. -/
theorem test_readByte_responds :
    after (exec readLast ((atLine readLast .respond).setB 0xA0#8))
      (fun t => t.txq = [0x41, 0x30, 0x0D, 0x0A, 0x52, 0x0D, 0x0A]) = true := by decide

/-- A cell holding 0x05 with target 0xA5: bit 5 is burnt next, on exactly its line (as in vector W11). -/
theorem test_program_selects :
    after (exec burn ({ (atLine burn .burnTest) with
        eng := { (atLine burn .burnTest).eng with existing := 0x05#8, target := 0xA5#8 } }))
      (fun t => t.bus.progSel = 0x20#8 ∧ t.eng.bit = 5#4 ∧ t.eng.point = .burnRaise) = true := by decide

/-- Vectors W5, W13: an impossible bit 0 stops the loop before any pulse. -/
theorem test_program_impossible :
    after (exec burn ({ (atLine burn .burnTest) with
        eng := { (atLine burn .burnTest).eng with existing := 0xFF#8, target := 0x00#8 } }))
      (fun t => t.bus.progSel = 0x00#8 ∧ t.eng.bit = 0#4 ∧ t.eng.point = .powerOff) = true := by decide

/-- Simulate mode records the bit and drives nothing. -/
theorem test_simulate_records :
    after (exec dryRun (atLine dryRun .burnTest))
      (fun t => t.eng.achieved = 0x01#8 ∧ t.bus.progSel = 0x00#8 ∧ t.eng.point = .bitNext) = true := by decide

/-- Vectors S1 to S4. -/
theorem test_simulated_bytes :
    simulatedByte 0x00 0xA5 = 0xA5 ∧ simulatedByte 0x02 0x01 = 0x03 ∧ simulatedByte 0x80 0x7F = 0xFF ∧
    simulatedByte 0x3C 0x3C = 0x3C := by decide

/-- A table word runs as the first instruction after reset. -/
theorem test_fetch_runs :
    after (step (State.reset.withFetchWord 8 0x72)) (fun t => t.eng.point = .selectChip ∧ t.busy) ∧
    after (step (State.reset.withFetchWord 8 0x56)) (fun t => t.eng.point = .respond) ∧
    after (step (State.reset.withFetchWord 8 0x52)) (fun t => t.eng.point = .countCells) := by decide

/-! ### States of the block, for the statements about them -/

/-- Every command of the table starts in the state that holds it. -/
theorem holding_begins (i : Instr) (h : i.wellFormed = true) : (State.reset.holding i).begins i where
  inv := by
    constructor
    case bounds =>
      intro _ j hj
      have hl : (State.reset.holding i).command.live = some i := by cases i <;> rfl
      rw [hl] at hj
      cases hj
      exact h
    all_goals cases i <;> simp [State.holding, State.reset, clearedLexer, ProtocolState.reserved, resetBus, resetEngine,
      addrInRange, cellCount, Memory.wf, wfFrom, State.engineIdle, emptyCommand, Command.live]
  noReset := by intro p hp; simp [State.holding, State.reset, defaultPorts] at hp; subst hp; rfl
  keeps := rfl
  accepts := rfl
  line := ⟨_, rfl, by cases i <;> rfl, by cases i <;> simp [State.holding]⟩

/-- Every line of every command is a line of a state of the block. -/
theorem atLine_inv (i : Instr) (p : Point) (hw : i.wellFormed = true) (hp : p ∈ pointsOf i) : Inv (atLine i p) := by
  have hne : p ≠ .idle := by rintro rfl; cases i <;> simp [pointsOf] at hp
  have hl : (atLine i p).command.live = some i := by cases i <;> rfl
  have ha : addrInRange (profileOf i) (cellOf i 0#10) = true := by
    cases i with
    | version => rfl
    | readAll chip => cases chip <;> rfl
    | blankCheck chip => cases chip <;> rfl
    | readByte chip addr => exact hw
    | program chip addr value => exact hw
    | simulate chip addr value => exact hw
  have hbusy : (atLine i p).eng.point ≠ .idle := hne
  constructor
  case address => exact ha
  case bounds => intro _ j hj; rw [hl] at hj; cases hj; exact hw
  case executing => intro _; rw [hl]; simp
  case idle => intro h; exact absurd h hne
  case busy => simp [atLine, State.engineIdle, hne]
  case running =>
    intro _
    refine ⟨rfl, rfl, rfl, rfl, i, hl, ?_⟩
    constructor
    case point => exact hp
    case scan => intro _ _; simp only [atLine, resetEngine]; cases profileOf i <;> simp [cellCount]
    case mode => intro _; rfl
    case wait =>
      intro n hn
      have hd : p.delay = some n := hn
      simp [atLine, resetEngine, hd]
    all_goals simp [atLine, resetEngine]
  all_goals simp [atLine, State.reset, clearedLexer, ProtocolState.reserved, resetEngine, Memory.wf, wfFrom]

/-- Right after reset, bytes offered, a line is awaited. -/
theorem offered_awaits (c : Byte) (cs : List Byte) : (offered (c :: cs)).awaitsLine where
  inv := by
    constructor
    all_goals simp [offered, State.reset, clearedLexer, ProtocolState.reserved, resetBus, resetEngine, addrInRange,
      cellCount, Memory.wf, wfFrom, State.engineIdle, emptyCommand]
  noReset := by intro p hp; simp [offered] at hp
  ready := rfl
  outside := rfl
  keeps := rfl
  free := rfl

theorem atLine_noReset (i : Instr) (p : Point) : (atLine i p).noReset := by intro q hq; simp [atLine, State.reset] at hq

/-- The same state, something else in the socket. -/
def socketed (k : Socket) (s : State) : State := { s with chip := { s.chip with socket := k } }

/-- The invariant says nothing of the socket. -/
theorem socketed_inv (k : Socket) {s : State} (h : Inv s) : Inv (socketed k s) := by
  constructor
  case running =>
    intro hp
    obtain ⟨h1, h2, h3, h4, i, h5, ok⟩ := h.running hp
    exact ⟨h1, h2, h3, h4, i, h5, ok.point, ok.supply, ok.enable, ok.stage, ok.line, ok.profile, ok.cell, ok.scan, ok.bit,
      ok.mode, ok.timer, ok.wait⟩
  exacts [h.cells, h.address, h.protocol, h.lexer, h.token, h.ready, h.discarding, h.bounds, h.executing, h.idle, h.counters,
    h.busy]

/-- Every command of the table starts whatever stands in the socket. -/
theorem socketed_begins (k : Socket) (i : Instr) (h : i.wellFormed = true) :
    (socketed k (State.reset.holding i)).begins i where
  inv := socketed_inv k (holding_begins i h).inv
  noReset := (holding_begins i h).noReset
  keeps := rfl
  accepts := rfl
  line := ⟨_, rfl, by cases i <;> rfl, by cases i <;> simp [socketed, State.holding]⟩

/-! ### A witness of the hypotheses of each statement -/

/-- These levels on the inputs in the coming cycle. -/
def levels (rst rxValid txReady : Bool) (s : State) : State :=
  { s with host := { s.host with ports := [{ rst := rst, rxValid := rxValid, txReady := txReady }] } }

/-- Reset in the middle of a pulse. -/
def pulsedReset : State := levels true true true (atLine burn .burnDisable)

theorem witness_ResetStep : pulsedReset.portsNow.rst = true ∧
    ∃ t, step pulsedReset = .next t ∧ t.portsNow.rst = false := ⟨by decide, _, rfl, by decide⟩

theorem witness_ResetKeepsChip_pulsing : pulsedReset.chip.cells.wf = true ∧ pulsedReset.portsNow.rst = true ∧
    ∃ t, step pulsedReset = .next t := ⟨by decide, by decide, _, rfl⟩

theorem witness_ResetKeepsChip_quiet : (levels true true true State.reset).chip.cells.wf = true ∧
    (levels true true true State.reset).portsNow.rst = true ∧ (levels true true true State.reset).chip.stage = .quiet ∧
    ∃ t, step (levels true true true State.reset) = .next t := ⟨by decide, by decide, by decide, _, rfl⟩

theorem witness_ByteAccepted : (offered [0x56]).accepted = some 0x56 ∧ (∃ t, step (offered [0x56]) = .next t) ∧
    (levels false false true (offered [0x56])).accepted = none := ⟨by decide, ⟨_, rfl⟩, by decide⟩

/-- A queue that the host does not take from, and one that it does. -/
def queued (txReady : Bool) : State := levels false true txReady { State.reset with busy := true, txq := [0x45] }

theorem witness_OutputQueue : (queued true).portsNow.rst = false ∧ (queued false).portsNow.rst = false ∧
    (∃ t, step (queued true) = .next t ∧ t.host.taken = [0x45] ∧ t.busy = false) ∧
    ∃ t, step (queued false) = .next t ∧ t.txq = [0x45] ∧ t.busy = true :=
  ⟨by decide, by decide, ⟨_, rfl, by decide⟩, _, rfl, by decide⟩

theorem witness_DecodeEncode : Instr.wellFormed (.readByte .p512 0x1FF#9) = true ∧
    Instr.wellFormed (.program .p256 0x0FF#9 0xFF#8) = true ∧ Instr.wellFormed (.simulate .p256 0x000#9 0x00#8) = true := by
  decide

theorem witness_DecodedIsWellFormed :
    decode [0x72, 0x20, 0x31, 0x20, 0x31, 0x46, 0x46, 0x0A, 0x56] = .request (.readByte .p512 0x1FF#9) [0x56] := by decide

theorem witness_CarriageReturnIsDelimiter : asciiLF ∉ [0x4B#8, 0x20#8, 0x31#8] := by decide

/-- `X 0`, `V 0`, and `K` alone. -/
theorem witness_IllegalLines_command : asciiLF ∉ [0x58#8, 0x20#8, 0x30#8] ∧
    tokens [0x58#8, 0x20#8, 0x30#8] = [[0x58#8], [0x30#8]] ∧
    0x58#8 ∉ [0x56#8, 0x52#8, 0x4B#8, 0x72#8, 0x77#8, 0x73#8] ∧
    tokens [0x56#8, 0x20#8, 0x30#8] = [[0x56#8], [0x30#8]] ∧ tokens [0x4B#8] = [[0x4B#8]] := by decide

/-- `s 0`, and `R 1 0`. -/
theorem witness_IllegalLines_chip : asciiLF ∉ [0x52#8, 0x20#8, 0x31#8, 0x20#8, 0x30#8] ∧
    tokens [0x73#8, 0x20#8, 0x30#8] = [[0x73#8], [chipToken .p256]] ∧
    tokens [0x52#8, 0x20#8, 0x31#8, 0x20#8, 0x30#8] = [[0x52#8], [chipToken .p512], [0x30#8]] := by decide

/-- `r 1 1FF 5`, the last cell of `P512`; and `w 0 FF`, the last cell of `P256`. -/
theorem witness_IllegalLines_address : hexValue [0x31#8, 0x46#8, 0x46#8] = some 0x1FF ∧ 0x1FF < cellCount .p512 ∧
    tokens [0x72#8, 0x20#8, 0x31#8, 0x20#8, 0x31#8, 0x46#8, 0x46#8, 0x20#8, 0x35#8] =
      [[0x72#8], [chipToken .p512], [0x31#8, 0x46#8, 0x46#8], [0x35#8]] ∧
    hexValue [0x46#8, 0x46#8] = some 0xFF ∧ 0xFF < cellCount .p256 ∧
    tokens [0x77#8, 0x20#8, 0x30#8, 0x20#8, 0x46#8, 0x46#8] = [[0x77#8], [chipToken .p256], [0x46#8, 0x46#8]] := by decide

/-- `s 1 1FF FF 0`. -/
theorem witness_IllegalLines_value : hexValue [0x46#8, 0x46#8] = some 0xFF ∧
    tokens [0x73#8, 0x20#8, 0x31#8, 0x20#8, 0x31#8, 0x46#8, 0x46#8, 0x20#8, 0x46#8, 0x46#8, 0x20#8, 0x30#8] =
      [[0x73#8], [chipToken .p512], [0x31#8, 0x46#8, 0x46#8], [0x46#8, 0x46#8], [0x30#8]] := by decide

/-- `VV`, and `K 2`. -/
theorem witness_BadFields_command : asciiLF ∉ [0x56#8, 0x56#8] ∧ tokens [0x56#8, 0x56#8] = [[0x56#8, 0x56#8]] ∧
    tokens [0x4B#8, 0x20#8, 0x32#8] = [[0x4B#8], [0x32#8]] := by decide

/-- `r 0 G`, and `w 1 200`, the first address past `P512`. -/
theorem witness_BadFields_address : tokens [0x72#8, 0x20#8, 0x30#8, 0x20#8, 0x47#8] = [[0x72#8], [chipToken .p256], [0x47#8]] ∧
    hexValue [0x47#8] = none ∧
    tokens [0x77#8, 0x20#8, 0x31#8, 0x20#8, 0x32#8, 0x30#8, 0x30#8] = [[0x77#8], [chipToken .p512], [0x32#8, 0x30#8, 0x30#8]] ∧
    hexValue [0x32#8, 0x30#8, 0x30#8] = some (cellCount .p512) := by decide

/-- `w 0 FF 100`, and `s 0 FF G`. -/
theorem witness_BadFields_value : hexValue [0x46#8, 0x46#8] = some 0xFF ∧ hexValue [0x31#8, 0x30#8, 0x30#8] = some 0x100 ∧
    tokens [0x77#8, 0x20#8, 0x30#8, 0x20#8, 0x46#8, 0x46#8, 0x20#8, 0x31#8, 0x30#8, 0x30#8] =
      [[0x77#8], [chipToken .p256], [0x46#8, 0x46#8], [0x31#8, 0x30#8, 0x30#8]] ∧
    tokens [0x73#8, 0x20#8, 0x30#8, 0x20#8, 0x46#8, 0x46#8, 0x20#8, 0x47#8] =
      [[0x73#8], [chipToken .p256], [0x46#8, 0x46#8], [0x47#8]] ∧ hexValue [0x47#8] = none := by decide

/-- Three hexadecimal digits up to 3FF, and 400. -/
theorem witness_LexerValueLaw : hexValue [0x33#8, 0x46#8, 0x46#8] = some 0x3FF ∧
    hexValue [0x34#8, 0x30#8, 0x30#8] = some 0x400 ∧ (lexToken [0x33#8, 0x46#8, 0x46#8]).ovf = false ∧
    (lexToken [0x34#8, 0x30#8, 0x30#8]).ovf = true := by decide

theorem witness_HandlersReadTokens : handleAddr (lexToken [0x31#8, 0x46#8, 0x46#8]) { emptyCommand with chip := .p512 } =
    .ok { emptyCommand with chip := .p512, addr := 0x1FF#9 } := by decide

theorem witness_EmptyLineIgnored : (offered [0x0A]).st = .ready ∧ (offered [0x0A]).lex.inTok = false ∧
    (offered [0x0A]).discard = false ∧ (offered [0x0A]).accepted = some asciiLF := by decide

/-- The token `RR` read, and the byte after it offered: vector P12. -/
def badCommand (c : Byte) : State := { offered [c] with lex := lexToken [0x52, 0x52] }

theorem witness_ErrorTransition_delim : (badCommand 0x20).st.reserved = false ∧ (badCommand 0x20).discard = false ∧
    (badCommand 0x20).accepted = some 0x20#8 ∧ (badCommand 0x20).byteCause 0x20#8 = some .badCmd := by decide

theorem witness_ErrorTransition_lf : (badCommand 0x0A).accepted = some 0x0A#8 ∧
    (badCommand 0x0A).byteCause 0x0A#8 = some .badCmd := by decide

/-- Vector P9: the line ends in `WaitAddress`. -/
def missingField : State :=
  { offered [0x0A] with st := .waitAddress, command := { emptyCommand with cmd := 0x72#8 } }

theorem witness_ErrorTransition_line : missingField.st.reserved = false ∧ missingField.discard = false ∧
    missingField.accepted = some 0x0A#8 ∧ missingField.byteCause 0x0A#8 = some .noRule := by decide

/-- The rest of a line is discarded. -/
def discards (c : Byte) : State := { offered [c] with discard := true }

theorem witness_DiscardToLineFeed : (discards 0x77).discard = true ∧ (discards 0x77).accepted = some 0x77#8 ∧
    (discards 0x0A).accepted = some 0x0A#8 := by decide

theorem witness_StepRunsCommand_line : (State.reset.holding readLast).begins readLast := holding_begins _ (by decide)

theorem witness_StepRunsCommand_engine : (atLine burn .burnTest).portsNow.rst = false ∧
    (atLine burn .burnTest).eng.point ≠ .idle ∧ (atLine burn .burnTest).command.live = some burn := by decide

theorem witness_FetchWordRuns : decodeTableWord 8 0x77 = some (.program .p256 0#9 0#8) ∧
    decodeTableWord 64 0x0A464631203120 = none ∧ decodeTableWord 56 0x46463120312072 = some (.readByte .p512 0x1FF#9) := by
  decide

theorem witness_CommandStarts : State.reset.eng.point = .idle := rfl

theorem witness_CommandEnds : (atLine burn .respond).eng.point = .respond ∧ (atLine burn .respond).eng.tmr = 0#32 := ⟨rfl, rfl⟩

theorem witness_EveryLineRuns : Inv (atLine dryRun .bitNext) ∧ (atLine dryRun .bitNext).command.live = some dryRun ∧
    (atLine dryRun .bitNext).eng.point ≠ .idle := ⟨atLine_inv _ _ (by decide) (by decide), by decide, by decide⟩

theorem witness_WaitCounts_load : (1 : Nat) ≤ 4294967295 ∧ 4294967295 < 2 ^ 32 ∧
    (State.reset.wait 4294967295).eng.tmr.toNat = 4294967294 ∧ (State.reset.wait 1).eng.tmr = 0#32 := by decide

/-- A read that still waits for three cycles. -/
def waiting : State := { atLine readLast .readSample with eng := { (atLine readLast .readSample).eng with tmr := 3#32 } }

theorem waiting_inv : Inv waiting := by
  have h : Inv (atLine readLast .readSample) := atLine_inv _ _ (by decide) (by decide)
  have hl : waiting.command.live = some readLast := rfl
  constructor
  case bounds => exact h.bounds
  case executing => exact h.executing
  case idle => intro hp; cases hp
  case counters => exact h.counters
  case running =>
    intro _
    obtain ⟨-, -, -, -, i, hi, hok⟩ := h.running (by decide)
    have : i = readLast := by cases hi; rfl
    subst this
    refine ⟨rfl, rfl, rfl, rfl, _, hl, ?_⟩
    constructor
    case timer => intro hp; cases hp
    case wait =>
      intro n hn
      have hn' : Config.nRead = n := Option.some.inj hn
      subst hn'
      exact ⟨Nat.le_add_right _ _, fun hp => absurd rfl hp⟩
    case point => exact hok.point
    case supply => exact hok.supply
    case enable => exact hok.enable
    case stage => exact hok.stage
    case line => exact hok.line
    case profile => exact hok.profile
    case cell => exact hok.cell
    case scan => exact hok.scan
    case bit => exact hok.bit
    case mode => exact hok.mode
  all_goals first | exact h.cells | exact h.address | exact h.protocol | exact h.lexer | exact h.token | exact h.ready | exact h.discarding

theorem witness_WaitCounts_run : Inv waiting ∧ waiting.noReset ∧ waiting.eng.point ≠ .idle ∧ 3 ≤ waiting.eng.tmr.toNat :=
  ⟨waiting_inv, fun q hq => (by simp [waiting, atLine, State.reset] at hq), by decide, by decide⟩

theorem witness_VersionResult : (State.reset.holding .version).begins .version := holding_begins _ rfl

theorem witness_ReadByteResult : (State.reset.holding readLast).begins readLast ∧
    (State.reset.holding readLast).chip.socket.matches .p512 = true := ⟨holding_begins _ (by decide), rfl⟩

theorem witness_ReadWithoutChip : (socketed .empty (State.reset.holding readLast)).begins readLast ∧
    (socketed .empty (State.reset.holding readLast)).chip.socket.matches .p512 = false :=
  ⟨socketed_begins _ _ (by decide), rfl⟩

theorem witness_ReadAllResult : (State.reset.holding (.readAll .p512)).begins (.readAll .p512) ∧
    (State.reset.holding (.readAll .p512)).chip.socket.matches .p512 = true := ⟨holding_begins _ rfl, rfl⟩

theorem witness_BlankCheckResult : (State.reset.holding (.blankCheck .p256)).begins (.blankCheck .p256) ∧
    (State.reset.holding (.blankCheck .p256)).chip.socket.matches .p256 = true := ⟨holding_begins _ rfl, rfl⟩

theorem witness_ProgramResult : (State.reset.holding burn).begins burn ∧
    (State.reset.holding burn).chip.socket.matches .p256 = true := ⟨holding_begins _ (by decide), rfl⟩

theorem witness_SimulateResult : (State.reset.holding dryRun).begins dryRun ∧
    (State.reset.holding dryRun).chip.socket.matches .p256 = true := ⟨holding_begins _ (by decide), rfl⟩

theorem witness_CellsAfterBurn : (State.reset.holding burn).begins burn ∧ (State.reset.holding dryRun).begins dryRun ∧
    (State.reset.holding burn).chip.socket.matches .p256 = true ∧
    (State.reset.holding dryRun).chip.socket.matches .p256 = true :=
  ⟨holding_begins _ (by decide), holding_begins _ (by decide), rfl, rfl⟩

/-- No chip, and a chip of the other profile. -/
theorem witness_ScansWithoutChip : (socketed .empty (State.reset.holding (.readAll .p512))).begins (.readAll .p512) ∧
    (socketed (.fixed .p512) (State.reset.holding (.blankCheck .p256))).begins (.blankCheck .p256) ∧
    Socket.empty.matches .p512 = false ∧ (Socket.fixed .p512).matches .p256 = false :=
  ⟨socketed_begins _ _ rfl, socketed_begins _ _ rfl, rfl, rfl⟩

theorem witness_BurnsWithoutChip : (socketed .empty (State.reset.holding dryRun)).begins dryRun ∧
    (socketed (.fixed .p512) (State.reset.holding burn)).begins burn ∧ Socket.empty.matches .p256 = false ∧
    (Socket.fixed .p512).matches .p256 = false :=
  ⟨socketed_begins _ _ (by decide), socketed_begins _ _ (by decide), rfl, rfl⟩

theorem witness_BurnConsequences : failsAt 0x3C#8 0x3C#8 0 = 8 := by decide

/-- `w 0 2A 00` on a blank cell. -/
theorem witness_RepeatedWriteIsNoOp :
    (State.reset.holding (.program .p256 0x02A#9 0x00#8)).begins (.program .p256 0x02A#9 0x00#8) ∧
    (State.reset.holding (.program .p256 0x02A#9 0x00#8)).chip.socket.matches .p256 = true ∧
    readCell (State.reset.holding (.program .p256 0x02A#9 0x00#8)).chip.cells 0x02A = 0x00#8 :=
  ⟨holding_begins _ (by decide), rfl, rfl⟩

theorem witness_PowerUpTrace : Inv (atLine burn .selectChip) ∧ (atLine burn .selectChip).noReset ∧
    (atLine burn .selectChip).command.live = some burn ∧ (atLine burn .selectChip).eng.point = .selectChip ∧
    2 ≤ Config.nPwrup + 1 := ⟨atLine_inv _ _ (by decide) (by decide), atLine_noReset _ _, by decide, rfl, Nat.le_add_left _ _⟩

theorem witness_PulseTrace : Inv (atLine burn .burnRaise) ∧ (atLine burn .burnRaise).noReset ∧
    (atLine burn .burnRaise).eng.point = .burnRaise := ⟨atLine_inv _ _ (by decide) (by decide), atLine_noReset _ _, rfl⟩

theorem witness_VerifyTrace : Inv (atLine burn .verifyEnable) ∧ (atLine burn .verifyEnable).noReset ∧
    (atLine burn .verifyEnable).eng.point = .verifyEnable ∧
    (atLine burn .verifyEnable).chip.socket.matches (atLine burn .verifyEnable).bus.chipSel = true ∧
    1 ≤ Config.nRead ∧ Config.nRead + 1 ≤ Config.nRead + Config.nCool :=
  ⟨atLine_inv _ _ (by decide) (by decide), atLine_noReset _ _, rfl, rfl, Nat.le_add_left _ _,
    Nat.add_le_add_left (Nat.le_add_left _ _) _⟩

theorem witness_SamplesAreGood_read : Inv (atLine readLast .readSample) ∧
    (atLine readLast .readSample).eng.point = .readSample ∧ (atLine readLast .readSample).eng.tmr = 0#32 ∧
    (atLine readLast .readSample).chip.socket.matches (atLine readLast .readSample).bus.chipSel = true :=
  ⟨atLine_inv _ _ (by decide) (by decide), rfl, rfl, rfl⟩

theorem witness_SamplesAreGood_verify : Inv (atLine burn .verifySample) ∧
    (atLine burn .verifySample).eng.point = .verifySample ∧ (atLine burn .verifySample).eng.tmr = 0#32 ∧
    (atLine burn .verifySample).chip.socket.matches (atLine burn .verifySample).bus.chipSel = true :=
  ⟨atLine_inv _ _ (by decide) (by decide), rfl, rfl, rfl⟩

/-- The programming level stands. -/
theorem witness_SupplyOrder_level : Inv (atLine burn .burnDrop) ∧ (atLine burn .burnDrop).bus.supply = .program :=
  ⟨atLine_inv _ _ (by decide) (by decide), rfl⟩

/-- Down from the programming level, up to it, and off. -/
theorem witness_SupplyOrder_moves :
    (∃ t, step (atLine burn .burnDrop) = .next t ∧ t.bus.supply = .nominal) ∧
    (∃ t, step (atLine burn .burnRaise) = .next t ∧ t.bus.supply = .program) ∧
    (∃ t, step (atLine burn .powerOff) = .next t ∧ t.bus.supply = .off) ∧
    Inv (atLine burn .burnRaise) ∧ Inv (atLine burn .powerOff) :=
  ⟨⟨_, rfl, rfl⟩, ⟨_, rfl, rfl⟩, ⟨_, rfl, rfl⟩, atLine_inv _ _ (by decide) (by decide), atLine_inv _ _ (by decide) (by decide)⟩

/-- A line is driven, and released. -/
theorem witness_DataLines : Inv (atLine burn .burnTest) ∧ Inv (atLine burn .burnRelease) ∧
    (atLine burn .burnTest).portsNow.rst = false ∧ (atLine burn .burnRelease).portsNow.rst = false ∧
    (∃ t, step (atLine burn .burnTest) = .next t ∧ t.bus.progSel ≠ (atLine burn .burnTest).bus.progSel) ∧
    ∃ t, step (atLine burn .burnRelease) = .next t ∧ t.bus.progSel ≠ (atLine burn .burnRelease).bus.progSel :=
  ⟨atLine_inv _ _ (by decide) (by decide), atLine_inv _ _ (by decide) (by decide), rfl, rfl, ⟨_, rfl, by decide⟩, _, rfl,
    by decide⟩

/-- A line of `w` after its read, and the first line of the power-down of `r`. -/
theorem witness_AddressStable_burn : Inv (atLine burn .verifyTest) ∧ scans burn = false ∧
    (atLine burn .verifyTest).eng.point.addressSet = true ∧ (∃ t, step (atLine burn .verifyTest) = .next t) ∧
    Inv (atLine readLast .powerDown) ∧ scans readLast = false ∧ ∃ t, step (atLine readLast .powerDown) = .next t :=
  ⟨atLine_inv _ _ (by decide) (by decide), rfl, rfl, ⟨_, rfl⟩, atLine_inv _ _ (by decide) (by decide), rfl, _, rfl⟩

/-- The scan of `R` goes on to cell 1. -/
theorem witness_AddressStable_scan : Inv (atLine (.readAll .p256) .scanNext) ∧ scans (.readAll .p256) = true ∧
    ∃ t, step (atLine (.readAll .p256) .scanNext) = .next t ∧
      t.bus.abus ≠ (atLine (.readAll .p256) .scanNext).bus.abus :=
  ⟨atLine_inv _ _ rfl (by decide), rfl, _, rfl, by decide⟩

theorem witness_ResponseAfterPowerDown : Inv (atLine burn .respond) ∧ (atLine burn .respond).portsNow.rst = false ∧
    (∃ t, step (atLine burn .respond) = .next t ∧ t.output ≠ (atLine burn .respond).output) ∧
    Inv (atLine (.readAll .p256) .scanEmit) ∧
    ∃ t, step (atLine (.readAll .p256) .scanEmit) = .next t ∧ t.output ≠ (atLine (.readAll .p256) .scanEmit).output :=
  ⟨atLine_inv _ _ (by decide) (by decide), rfl, ⟨_, rfl, by decide⟩, atLine_inv _ _ rfl (by decide), _, rfl, by decide⟩

theorem witness_CellsOnlyByPulse : Inv (atLine burn .burnRelease) ∧ (atLine burn .burnRelease).portsNow.rst = false ∧
    (∃ t, step (atLine burn .burnRelease) = .next t) ∧ Inv (atLine burn .burnDrop) ∧
    ∃ t, step (atLine burn .burnDrop) = .next t :=
  ⟨atLine_inv _ _ (by decide) (by decide), rfl, ⟨_, rfl⟩, atLine_inv _ _ (by decide) (by decide), _, rfl⟩

theorem witness_FusesAreOneWay : (atLine burn .burnRelease).chip.cells.wf = true ∧
    ∃ t, runs 1 (atLine burn .burnRelease) = .next t := ⟨rfl, _, rfl⟩

/-- No chip in the socket. -/
theorem witness_EmptySocket : Socket.empty.matches .p512 = false ∧ (Socket.fixed .p256).matches .p512 = false ∧
    ({ State.reset.chip with socket := .empty } : Chip).stage = .quiet ∧ addrInRange .p512 0x1FF#9 = true ∧
    drivesLine { resetBus with chipSel := .p512, abus := 0x1FF#9, supply := .nominal }
      { resetBus with chipSel := .p512, abus := 0x1FF#9, supply := .nominal, progSel := 0x80#8 } = true := by decide

theorem witness_FrameOfReads : (∃ t, exec .version (atLine .version .respond) = .next t) ∧
    (∃ t, exec (.readAll .p512) (atLine (.readAll .p512) .scanEmit) = .next t) ∧
    (∃ t, exec (.blankCheck .p256) (atLine (.blankCheck .p256) .blankLoop) = .next t) ∧
    ∃ t, exec readLast (atLine readLast .readAddr) = .next t := ⟨⟨_, rfl⟩, ⟨_, rfl⟩, ⟨_, rfl⟩, _, rfl⟩

theorem witness_FrameOfBurns : (∃ t, exec burn (atLine burn .burnTest) = .next t) ∧
    ∃ t, exec dryRun (atLine dryRun .setTarget) = .next t := ⟨⟨_, rfl⟩, _, rfl⟩

theorem witness_FrameOfByteSteps : (offered [0x72]).eng.point = .idle ∧ (offered [0x72]).portsNow.rst = false ∧
    (∃ t, step (offered [0x72]) = .next t) ∧ (offered []).accepted = none ∧ ∃ t, step (offered []) = .next t :=
  ⟨rfl, rfl, ⟨_, rfl⟩, rfl, _, rfl⟩

/-- Vector P5, with a byte of the next line. -/
theorem witness_RequestAnswered : (offered [0x72, 0x20, 0x31, 0x20, 0x31, 0x46, 0x46, 0x0A, 0x56]).awaitsLine ∧
    decode (offered [0x72, 0x20, 0x31, 0x20, 0x31, 0x46, 0x46, 0x0A, 0x56]).host.rx =
      .request (.readByte .p512 0x1FF#9) [0x56] ∧
    (offered [0x72, 0x20, 0x31, 0x20, 0x31, 0x46, 0x46, 0x0A, 0x56]).chip.socket.matches .p512 = true :=
  ⟨offered_awaits _ _, by decide, rfl⟩

/-- Vector P12. -/
theorem witness_MalformedAnswered : (offered [0x52, 0x52, 0x20, 0x30, 0x0A]).awaitsLine ∧
    decode (offered [0x52, 0x52, 0x20, 0x30, 0x0A]).host.rx = .malformed .badCmd [] := ⟨offered_awaits _ _, by decide⟩

/-- Vector P11. -/
theorem witness_BlankLineSkipped : (offered [0x20, 0x09, 0x0D, 0x0A]).awaitsLine ∧
    decode (offered [0x20, 0x09, 0x0D, 0x0A]).host.rx = .emptyLine [] := ⟨offered_awaits _ _, by decide⟩

theorem witness_StepKeepsInv : Inv (atLine burn .burnRelease) ∧ ∃ t, step (atLine burn .burnRelease) = .next t :=
  ⟨atLine_inv _ _ (by decide) (by decide), _, rfl⟩

theorem witness_NeverStops : Inv (atLine burn .burnRaise) ∧ (atLine burn .burnRaise).chip.socket = .matching :=
  ⟨atLine_inv _ _ (by decide) (by decide), rfl⟩

/-- `w` of `P256` comes to its first pulse: with the other chip it stops, with its own it goes on. -/
theorem witness_StopsOnlyWithoutChip : Inv (socketed (.fixed .p512) (atLine burn .burnTest)) ∧
    step (socketed (.fixed .p512) (atLine burn .burnTest)) = .fault .programmingUnspecified ∧
    Inv (socketed (.fixed .p256) (atLine burn .burnTest)) ∧
    ∃ t, step (socketed (.fixed .p256) (atLine burn .burnTest)) = .next t ∧ t.eng.point = .burnRaise :=
  have h : Inv (atLine burn .burnTest) := atLine_inv _ _ (by decide) (by decide)
  ⟨socketed_inv _ h, rfl, socketed_inv _ h, _, rfl, rfl⟩

/-- A state that is none of the block. -/
def reservedState (c : Byte) : State := { offered [c] with st := .waitTestParams }

theorem witness_ReservedStateStops : (reservedState 0x0A).discard = false ∧ (reservedState 0x0A).accepted = some 0x0A#8 ∧
    classOf 0x0A#8 = .lf ∧ (reservedState 0x20).accepted = some 0x20#8 ∧ classOf 0x20#8 = .delim := by decide

end Sys2Proof.Tests
end

/-! SUPPORT. The request stream (10_state.md R41): when a byte is accepted, what of the block's part of a step leaves the
host's side of the ports alone, and what a step does to the stream. -/

namespace Sys2Proof.Machine

/-! ### When a request byte is accepted -/

/-- 10_state.md R41: `rx_ready` in terms of the registers and the reset input. -/
theorem rxReady_iff {s : State} :
    s.rxReady = true ↔ s.busy = false ∧ s.eng.point = .idle ∧ s.txq = [] ∧ s.portsNow.rst = false := by
  simp [State.rxReady, State.engineIdle, and_assoc]

/-- A byte is offered exactly when `rx_valid` = 1 and the stream begins with it. -/
theorem rxOffered_eq_some_iff {s : State} {c : Byte} :
    s.rxOffered = some c ↔ s.portsNow.rxValid = true ∧ s.host.rx.head? = some c := by
  simp [State.rxOffered]

/-- A byte is accepted exactly when the block is ready and the byte is offered. -/
theorem accepted_eq_some_iff {s : State} {c : Byte} :
    s.accepted = some c ↔ s.rxReady = true ∧ s.rxOffered = some c := by
  simp [State.accepted]

theorem accepted_of_not_rxReady {s : State} (h : s.rxReady ≠ true) : s.accepted = none := if_neg h

/-- With `rst` = 1 no byte is accepted (70_reset_and_hazards.md R165). -/
theorem accepted_of_rst {s : State} (h : s.portsNow.rst = true) : s.accepted = none := by
  refine accepted_of_not_rxReady fun hr => ?_
  obtain ⟨-, -, -, hrst⟩ := rxReady_iff.mp hr
  exact absurd h (by simp [hrst])

/-- While the engine runs no byte is accepted. -/
theorem accepted_of_running {s : State} (h : s.eng.point ≠ .idle) : s.accepted = none := by
  refine accepted_of_not_rxReady fun hr => ?_
  obtain ⟨-, hidle, -, -⟩ := rxReady_iff.mp hr
  exact h hidle

/-! ### The meanings leave the host's side of the ports alone -/

@[simp] theorem bitLoop_host (i : Nat) (s : State) : (bitLoop i s).host = s.host := by
  obtain ⟨-, -, -, -, -, -, -, -, hhost, -⟩ := bitLoop_frame i s
  exact hhost

@[simp] theorem burnTest_host (s : State) : (burnTest s).host = s.host := by
  unfold burnTest; split <;> simp

@[simp] theorem verifyTest_host (s : State) : (verifyTest s).host = s.host := by
  unfold verifyTest; split <;> simp

@[simp] theorem scanCell_host (chip : Profile) (a : BitVec 10) (s : State) : (scanCell chip a s).host = s.host := by
  unfold scanCell; split <;> simp

@[simp] theorem blankCell_host (chip : Profile) (s : State) : (blankCell chip s).host = s.host := by
  unfold blankCell; split <;> simp

@[simp] theorem blankStep_host (s : State) : (blankStep s).host = s.host := by
  unfold blankStep; split <;> simp

/-- A sample leaves the host's side alone where what its line does with the byte does. -/
theorem sampleBus_host {s u : State} {line : Byte → State → State} (h : s.sampleBus line = .next u)
    (hline : ∀ b t, (line b t).host = t.host) : u.host = s.host := by
  obtain ⟨b, c, -, rfl⟩ := sampleBus_cases h
  exact hline b _

theorem versionLine_host {p : Point} {s u : State} (h : versionLine p s = .next u) : u.host = s.host := by
  cases p with
  | respond => cases h; simp
  | _ => cases h

theorem readAllLine_host {chip : Profile} {p : Point} {s u : State} (h : readAllLine chip p s = .next u) :
    u.host = s.host := by
  cases p with
  | readSample =>
    simp only [readAllLine] at h
    exact sampleBus_host h fun _ _ => rfl
  | _ => cases h <;> simp

theorem blankCheckLine_host {chip : Profile} {p : Point} {s u : State} (h : blankCheckLine chip p s = .next u) :
    u.host = s.host := by
  cases p with
  | readSample =>
    simp only [blankCheckLine] at h
    exact sampleBus_host h fun _ _ => rfl
  | _ => cases h <;> simp

theorem readByteLine_host {chip : Profile} {addr : CellAddr} {p : Point} {s u : State}
    (h : readByteLine chip addr p s = .next u) : u.host = s.host := by
  cases p with
  | readSample =>
    simp only [readByteLine] at h
    exact sampleBus_host h fun _ _ => rfl
  | _ => cases h <;> simp

theorem burnLine_host {real : Bool} {chip : Profile} {addr : CellAddr} {value : Byte} {p : Point} {s u : State}
    (h : burnLine real chip addr value p s = .next u) : u.host = s.host := by
  cases p with
  | readSample =>
    simp only [burnLine] at h
    exact sampleBus_host h fun _ _ => rfl
  | verifySample => exact sampleBus_host h fun _ _ => rfl
  | _ => cases h <;> simp

/-- A command leaves the host's side alone where each of its lines does. -/
theorem runCommand_host {first : Point} {line : Point → State → Result} {s u : State}
    (hline : ∀ p v, line p s = .next v → v.host = s.host) (h : s.runCommand first line = .next u) :
    u.host = s.host := by
  obtain ⟨-, rfl⟩ | ⟨-, -, rfl⟩ | ⟨-, -, hl⟩ := runCommand_cases h
  · rfl
  · rfl
  · exact hline _ _ hl

/-- No clock cycle of a command touches the streams or the input levels. -/
theorem exec_host {i : Instr} {s u : State} (h : exec i s = .next u) : u.host = s.host := by
  cases i with
  | version => exact runCommand_host (fun _ _ => versionLine_host) h
  | readAll chip => exact runCommand_host (fun _ _ => readAllLine_host) h
  | blankCheck chip => exact runCommand_host (fun _ _ => blankCheckLine_host) h
  | readByte chip addr => exact runCommand_host (fun _ _ => readByteLine_host) h
  | program chip addr value => exact runCommand_host (fun _ _ => burnLine_host) h
  | simulate chip addr value => exact runCommand_host (fun _ _ => burnLine_host) h

/-! ### The interpreter leaves the host's side of the ports alone -/

@[simp] theorem discardByte_host (c : Byte) (s : State) : (s.discardByte c).host = s.host := by
  unfold State.discardByte; split <;> rfl

/-- A token that its handler takes changes the Command register, the lexer and the protocol state, as its row says
(40_interpreter.md R100, R103, R104). -/
theorem tokenEvent_ok_cases {s t : State} (h : tokenEvent s = .ok t) :
    ∃ row handler command, lookupRow s.command.cmd s.st .tok = some row ∧ row.handler.onToken = some handler ∧
      handler s.lex s.command = .ok command ∧ t = { s with command := command, lex := clearedLexer, st := row.hint } := by
  unfold tokenEvent at h
  split at h
  · cases h
  · next row hrow =>
    split at h
    · cases h
    · next handler hhandler =>
      split at h
      · cases h
      · next command hcommand => exact ⟨row, handler, command, hrow, hhandler, hcommand, (Except.ok.inj h).symm⟩

theorem tokenEvent_host {s t : State} (h : tokenEvent s = .ok t) : t.host = s.host := by
  obtain ⟨row, handler, command, -, -, -, rfl⟩ := tokenEvent_ok_cases h
  rfl

/-- What a line feed can do at its `EOL`: nothing in `Ready`, the error transition, or the start of the row's command
(40_interpreter.md R103, R106, R111). -/
theorem lineEvent_cases {s u : State} (h : lineEvent s = .next u) :
    (s.st = .ready ∧ u = s) ∨
    (s.st ≠ .ready ∧ u = s.raise .noRule .lf) ∨
    (s.st ≠ .ready ∧ ∃ row i, lookupRow s.command.cmd s.st .eol = some row ∧ row.handler.onLine s.command = some i ∧
      exec i s = .next u) := by
  unfold lineEvent at h
  split at h
  · next hready => exact .inl ⟨hready, (Host.Outcome.next.inj h).symm⟩
  · next hready =>
    split at h
    · exact .inr (.inl ⟨hready, (Host.Outcome.next.inj h).symm⟩)
    · next row hrow =>
      split at h
      · exact .inr (.inl ⟨hready, (Host.Outcome.next.inj h).symm⟩)
      · next i hi => exact .inr (.inr ⟨hready, row, i, hrow, hi, h⟩)

theorem lineEvent_host {s u : State} (h : lineEvent s = .next u) : u.host = s.host := by
  obtain ⟨-, rfl⟩ | ⟨-, rfl⟩ | ⟨-, row, i, -, -, hexec⟩ := lineEvent_cases h
  · rfl
  · simp
  · exact exec_host hexec

theorem delimByte_host {s u : State} (h : delimByte s = .next u) : u.host = s.host := by
  unfold delimByte at h
  split at h
  · split at h
    · cases h; simp
    · next t ht => cases h; exact tokenEvent_host ht
  · cases h; rfl

theorem lfByte_host {s u : State} (h : lfByte s = .next u) : u.host = s.host := by
  unfold lfByte at h
  split at h
  · split at h
    · cases h; simp
    · next t ht => exact (lineEvent_host h).trans (tokenEvent_host ht)
  · exact lineEvent_host h

/-- What the byte step of an accepted byte can do: discard it, put it into the token, or end the token or the line
(40_interpreter.md R96, R113). -/
theorem byteStep_cases {c : Byte} {s u : State} (h : byteStep c s = .next u) :
    (s.discard = true ∧ u = s.discardByte c) ∨
    (s.discard = false ∧ u = { s with lex := s.lex.append c }) ∨
    (s.discard = false ∧ s.st.reserved = false ∧ classOf c = .delim ∧ delimByte s = .next u) ∨
    (s.discard = false ∧ s.st.reserved = false ∧ classOf c = .lf ∧ lfByte s = .next u) := by
  unfold byteStep at h
  split at h
  · next hd => exact .inl ⟨hd, (Host.Outcome.next.inj h).symm⟩
  · next hd =>
    have hkeeps : s.discard = false := by simpa using hd
    right
    split at h
    · exact .inl ⟨hkeeps, (Host.Outcome.next.inj h).symm⟩
    · exact .inl ⟨hkeeps, (Host.Outcome.next.inj h).symm⟩
    · next hc =>
      split at h
      · cases h
      · next hr => exact .inr (.inl ⟨hkeeps, by simpa using hr, hc, h⟩)
    · next hc =>
      split at h
      · cases h
      · next hr => exact .inr (.inr ⟨hkeeps, by simpa using hr, hc, h⟩)

theorem byteStep_host {c : Byte} {s u : State} (h : byteStep c s = .next u) : u.host = s.host := by
  obtain ⟨-, rfl⟩ | ⟨-, rfl⟩ | ⟨-, -, -, hdelim⟩ | ⟨-, -, -, hlf⟩ := byteStep_cases h
  · simp
  · rfl
  · exact delimByte_host hdelim
  · exact lfByte_host hlf

/-! ### What a step does to the request stream -/

/-- The block's part of a step moves the host's side only by accepting a byte. -/
theorem blockStep_host {s u : State} (h : blockStep s = .next u) :
    u.host = if s.accepted = none then s.host else s.acceptByte.host := by
  obtain ⟨-, hnone, rfl⟩ | ⟨-, c, hsome, hbyte⟩ | ⟨hrun, i, -, hexec⟩ := blockStep_cases h
  · rw [if_pos hnone]
  · rw [if_neg (by simp [hsome])]
    exact byteStep_host hbyte
  · rw [if_pos (accepted_of_running hrun)]
    exact exec_host hexec

/-- A step, with or without reset, takes the accepted byte and no other off the stream. -/
theorem step_rx {s t : State} (h : step s = .next t) :
    t.host.rx = if s.accepted = none then s.host.rx else s.host.rx.tail := by
  obtain ⟨hrst, rfl⟩ | ⟨-, u, c, hblock, -, rfl⟩ := step_cases h
  · rw [if_pos (accepted_of_rst hrst), State.resetStep_host_rx]
  · calc (State.nextPorts { State.moveQueue s u with chip := c }).host.rx
        = u.host.rx := by simp
      _ = (if s.accepted = none then s.host else s.acceptByte.host).rx := by rw [blockStep_host hblock]
      _ = if s.accepted = none then s.host.rx else s.host.rx.tail := by split <;> simp

/-- Settles O4: the conditions of R41 read off the definitions, and the stream followed through every part of a step. -/
theorem byteAccepted : Obligations.ByteAccepted := by
  refine ⟨fun s => rxReady_iff, fun s c => ?_, fun s t => step_rx⟩
  rw [accepted_eq_some_iff, rxOffered_eq_some_iff]
  exact and_left_comm

/-! ### The reset values -/

/-- Settles O1: each register of `State.reset`, read off its definition and those of its parts. -/
theorem resetValues : Obligations.ResetValues :=
  ⟨rfl, rfl, rfl, rfl, rfl, rfl, rfl, rfl, rfl, rfl, rfl, rfl, rfl, rfl, rfl, rfl⟩

end Sys2Proof.Machine

/-! SUPPORT. The cells over a step and over a run (20_memory.md R49): the block's own part of a step moves nothing of the
chip but the counter of free values, so the cells change by the programming rule alone, which only sets bits. -/

namespace Sys2Proof.Machine

/-! ### The block's part of a step touches the chip only by sampling it -/

/-- A chip that differs from another at most in how many free values have been drawn: all a sample can do (R58). -/
def Chip.sameButDraws (c c' : Chip) : Prop := ∃ d, c' = { c with draws := d }

theorem Chip.sameButDraws_of_eq {c c' : Chip} (h : c' = c) : c.sameButDraws c' := ⟨c.draws, h⟩

theorem Chip.sameButDraws_cells {c c' : Chip} (h : c.sameButDraws c') : c'.cells = c.cells := by
  obtain ⟨d, rfl⟩ := h
  rfl

theorem answer_sameButDraws {c c' : Chip} {bus : Bus} {b : Byte} (h : c.answer bus = .ok (b, c')) :
    c.sameButDraws c' := by
  obtain ⟨-, -, rfl, -⟩ | ⟨-, rfl, -⟩ := answer_cases h
  · exact Chip.sameButDraws_of_eq rfl
  · exact ⟨_, rfl⟩

/-- A sample draws at most a free value where what its line does with the byte leaves the chip alone. -/
theorem sampleBus_chip {s u : State} {line : Byte → State → State} (h : s.sampleBus line = .next u)
    (hline : ∀ b t, (line b t).chip = t.chip) : s.chip.sameButDraws u.chip := by
  obtain ⟨b, c, hc, rfl⟩ := sampleBus_cases h
  rw [hline]
  exact answer_sameButDraws hc

@[simp] theorem bitLoop_chip (i : Nat) (s : State) : (bitLoop i s).chip = s.chip := by
  obtain ⟨-, -, -, -, -, -, -, -, -, hchip⟩ := bitLoop_frame i s
  exact hchip

@[simp] theorem burnTest_chip (s : State) : (burnTest s).chip = s.chip := by
  unfold burnTest; split <;> simp

@[simp] theorem verifyTest_chip (s : State) : (verifyTest s).chip = s.chip := by
  unfold verifyTest; split <;> simp

@[simp] theorem scanCell_chip (chip : Profile) (a : BitVec 10) (s : State) : (scanCell chip a s).chip = s.chip := by
  unfold scanCell; split <;> simp

@[simp] theorem blankCell_chip (chip : Profile) (s : State) : (blankCell chip s).chip = s.chip := by
  unfold blankCell; split <;> simp

@[simp] theorem blankStep_chip (s : State) : (blankStep s).chip = s.chip := by
  unfold blankStep; split <;> simp

theorem versionLine_chip {p : Point} {s u : State} (h : versionLine p s = .next u) : s.chip.sameButDraws u.chip := by
  cases p with
  | respond => cases h; exact Chip.sameButDraws_of_eq (by simp)
  | _ => cases h

theorem readAllLine_chip {chip : Profile} {p : Point} {s u : State} (h : readAllLine chip p s = .next u) :
    s.chip.sameButDraws u.chip := by
  cases p with
  | readSample =>
    simp only [readAllLine] at h
    exact sampleBus_chip h fun _ _ => rfl
  | _ => cases h <;> exact Chip.sameButDraws_of_eq (by simp)

theorem blankCheckLine_chip {chip : Profile} {p : Point} {s u : State} (h : blankCheckLine chip p s = .next u) :
    s.chip.sameButDraws u.chip := by
  cases p with
  | readSample =>
    simp only [blankCheckLine] at h
    exact sampleBus_chip h fun _ _ => rfl
  | _ => cases h <;> exact Chip.sameButDraws_of_eq (by simp)

theorem readByteLine_chip {chip : Profile} {addr : CellAddr} {p : Point} {s u : State}
    (h : readByteLine chip addr p s = .next u) : s.chip.sameButDraws u.chip := by
  cases p with
  | readSample =>
    simp only [readByteLine] at h
    exact sampleBus_chip h fun _ _ => rfl
  | _ => cases h <;> exact Chip.sameButDraws_of_eq (by simp)

theorem burnLine_chip {real : Bool} {chip : Profile} {addr : CellAddr} {value : Byte} {p : Point} {s u : State}
    (h : burnLine real chip addr value p s = .next u) : s.chip.sameButDraws u.chip := by
  cases p with
  | readSample =>
    simp only [burnLine] at h
    exact sampleBus_chip h fun _ _ => rfl
  | verifySample => exact sampleBus_chip h fun _ _ => rfl
  | _ => cases h <;> exact Chip.sameButDraws_of_eq (by simp)

/-- A command draws at most a free value in a clock cycle where each of its lines does. -/
theorem runCommand_chip {first : Point} {line : Point → State → Result} {s u : State}
    (hline : ∀ p v, line p s = .next v → s.chip.sameButDraws v.chip) (h : s.runCommand first line = .next u) :
    s.chip.sameButDraws u.chip := by
  obtain ⟨-, rfl⟩ | ⟨-, -, rfl⟩ | ⟨-, -, hl⟩ := runCommand_cases h
  · exact Chip.sameButDraws_of_eq (by simp)
  · exact Chip.sameButDraws_of_eq (by simp)
  · exact hline _ _ hl

/-- No clock cycle of a command changes the chip itself: it is the chip that acts on the outputs it sees. -/
theorem exec_chip {i : Instr} {s u : State} (h : exec i s = .next u) : s.chip.sameButDraws u.chip := by
  cases i with
  | version => exact runCommand_chip (fun _ _ => versionLine_chip) h
  | readAll chip => exact runCommand_chip (fun _ _ => readAllLine_chip) h
  | blankCheck chip => exact runCommand_chip (fun _ _ => blankCheckLine_chip) h
  | readByte chip addr => exact runCommand_chip (fun _ _ => readByteLine_chip) h
  | program chip addr value => exact runCommand_chip (fun _ _ => burnLine_chip) h
  | simulate chip addr value => exact runCommand_chip (fun _ _ => burnLine_chip) h

@[simp] theorem discardByte_chip (c : Byte) (s : State) : (s.discardByte c).chip = s.chip := by
  unfold State.discardByte; split <;> rfl

theorem tokenEvent_chip {s t : State} (h : tokenEvent s = .ok t) : t.chip = s.chip := by
  obtain ⟨row, handler, command, -, -, -, rfl⟩ := tokenEvent_ok_cases h
  rfl

theorem lineEvent_chip {s u : State} (h : lineEvent s = .next u) : s.chip.sameButDraws u.chip := by
  obtain ⟨-, rfl⟩ | ⟨-, rfl⟩ | ⟨-, row, i, -, -, hexec⟩ := lineEvent_cases h
  · exact Chip.sameButDraws_of_eq rfl
  · exact Chip.sameButDraws_of_eq (by simp)
  · exact exec_chip hexec

theorem delimByte_chip {s u : State} (h : delimByte s = .next u) : u.chip = s.chip := by
  unfold delimByte at h
  split at h
  · split at h
    · cases h; simp
    · next t ht => cases h; exact tokenEvent_chip ht
  · cases h; rfl

theorem lfByte_chip {s u : State} (h : lfByte s = .next u) : s.chip.sameButDraws u.chip := by
  unfold lfByte at h
  split at h
  · split at h
    · cases h; exact Chip.sameButDraws_of_eq (by simp)
    · next t ht => rw [← tokenEvent_chip ht]; exact lineEvent_chip h
  · exact lineEvent_chip h

theorem byteStep_chip {c : Byte} {s u : State} (h : byteStep c s = .next u) : s.chip.sameButDraws u.chip := by
  obtain ⟨-, rfl⟩ | ⟨-, rfl⟩ | ⟨-, -, -, hdelim⟩ | ⟨-, -, -, hlf⟩ := byteStep_cases h
  · exact Chip.sameButDraws_of_eq (by simp)
  · exact Chip.sameButDraws_of_eq rfl
  · exact Chip.sameButDraws_of_eq (delimByte_chip hdelim)
  · exact lfByte_chip hlf

/-- The block's part of a step draws at most a free value; cells, stage, socket and the count of cycles stay. -/
theorem blockStep_chip {s u : State} (h : blockStep s = .next u) : s.chip.sameButDraws u.chip := by
  obtain ⟨-, -, rfl⟩ | ⟨-, c, -, hbyte⟩ | ⟨-, i, -, hexec⟩ := blockStep_cases h
  · exact Chip.sameButDraws_of_eq rfl
  · exact byteStep_chip (s := s.acceptByte) hbyte
  · exact exec_chip hexec

/-! ### What a step does to the cells -/

theorem observe_cells_cases {c c' : Chip} {old new : Bus} (h : c.observe old new = .ok c') :
    c'.cells = c.cells ∨ c'.cells = (c.burn old).cells := by
  obtain ⟨-, rfl⟩ | ⟨-, -, -, rfl⟩ | ⟨-, g, rfl⟩ := observe_cases h
  · exact .inl rfl
  · exact .inr rfl
  · exact .inl rfl

theorem cutByReset_cells_cases (c : Chip) (old : Bus) :
    (c.cutByReset old).cells = c.cells ∨ (c.cutByReset old).cells = (c.burn old).cells := by
  unfold Chip.cutByReset
  split
  · exact .inl rfl
  · exact .inr rfl

/-- A step, with or without reset, leaves the cells alone or applies the programming rule (R51, R52) to them, with the
outputs as they stood before it. -/
theorem step_cells_cases {s t : State} (h : step s = .next t) :
    t.chip.cells = s.chip.cells ∨ ∃ c : Chip, c.cells = s.chip.cells ∧ t.chip.cells = (c.burn s.bus).cells := by
  obtain ⟨-, rfl⟩ | ⟨-, u, c, hblock, hobserve, rfl⟩ := step_cases h
  · rw [State.resetStep_chip]
    exact (cutByReset_cells_cases s.chip s.bus).imp_right fun hburn => ⟨s.chip, rfl, hburn⟩
  · have hu : u.chip.cells = s.chip.cells := Chip.sameButDraws_cells (blockStep_chip hblock)
    rw [State.nextPorts_chip, ← hu]
    exact (observe_cells_cases hobserve).imp_right fun hburn => ⟨u.chip, rfl, hburn⟩

/-- The canonical form of the cells is kept by every step. -/
theorem step_cells_wf {s t : State} (h : step s = .next t) (hw : s.chip.cells.wf = true) :
    t.chip.cells.wf = true := by
  obtain hsame | ⟨c, hc, hburn⟩ := step_cells_cases h
  · rwa [hsame]
  · rw [hburn]
    exact c.burn_wf s.bus (by rwa [hc])

/-! ### Fuses are one-directional -/

/-- No bit that is 1 in a cell of `m` is 0 in that cell of `m'` (R49). -/
def Memory.keepsOnes (m m' : Memory) : Prop := ∀ a, readCell m' a &&& readCell m a = readCell m a

theorem Memory.keepsOnes_refl (m : Memory) : m.keepsOnes m := fun _ => BitVec.and_self

theorem Memory.keepsOnes_trans {m₁ m₂ m₃ : Memory} (h₁₂ : m₁.keepsOnes m₂) (h₂₃ : m₂.keepsOnes m₃) :
    m₁.keepsOnes m₃ := fun a =>
  calc readCell m₃ a &&& readCell m₁ a
      = readCell m₃ a &&& (readCell m₂ a &&& readCell m₁ a) := by rw [h₁₂ a]
    _ = readCell m₃ a &&& readCell m₂ a &&& readCell m₁ a := (BitVec.and_assoc _ _ _).symm
    _ = readCell m₂ a &&& readCell m₁ a := by rw [h₂₃ a]
    _ = readCell m₁ a := h₁₂ a

/-- Setting bits loses none. -/
theorem or_and_self_left (v w : Byte) : (v ||| w) &&& v = v := by
  ext i hi
  simp only [BitVec.getElem_and, BitVec.getElem_or]
  cases v[i] <;> simp

/-- The programming rule (R51) loses no bit: it only sets the driven lines, and those only in the addressed cell. -/
theorem Chip.burn_keepsOnes (c : Chip) (b : Bus) (h : c.cells.wf = true) : c.cells.keepsOnes (c.burn b).cells := by
  intro a
  rw [c.burn_readCell b h a]
  split
  · next haddressed =>
    rw [haddressed]
    split
    · exact or_and_self_left _ _
    · exact BitVec.and_self
  · exact BitVec.and_self

theorem step_keepsOnes {s t : State} (h : step s = .next t) (hw : s.chip.cells.wf = true) :
    s.chip.cells.keepsOnes t.chip.cells := by
  obtain hsame | ⟨c, hc, hburn⟩ := step_cells_cases h
  · rw [hsame]
    exact Memory.keepsOnes_refl _
  · rw [hburn, ← hc]
    exact c.burn_keepsOnes s.bus (by rwa [hc])

/-- A run, with resets or without, loses no bit of any cell. -/
theorem runs_keepsOnes {n : Nat} {s t : State} (hw : s.chip.cells.wf = true) (h : runs n s = .next t) :
    s.chip.cells.keepsOnes t.chip.cells := by
  induction n generalizing s with
  | zero => cases h; exact Memory.keepsOnes_refl _
  | succ n ih =>
    obtain ⟨u, hstep, hrest⟩ := runs_succ_cases h
    exact Memory.keepsOnes_trans (step_keepsOnes hstep hw) (ih (step_cells_wf hstep hw) hrest)

/-- Settles O48: every step leaves the cells alone or applies the programming rule, which only sets bits, and keeps the
canonical form the next step needs. -/
theorem fusesAreOneWay : Obligations.FusesAreOneWay :=
  ⟨rfl, fun _ _ _ => runs_keepsOnes⟩

end Sys2Proof.Machine

/-! SUPPORT. The byte classes (30_encoding.md R68, R69): what a digit and a delimiter are, and when a byte is of each
class. -/

namespace Sys2Proof

/-! ### Digits and delimiters -/

/-- 30_encoding.md R69: a byte is a digit of value `v` when it lies in one of the three ranges, `v` being its distance from
the range's beginning, on top of 10 for a letter. -/
theorem hexDigit?_eq_some_iff {c : Byte} {v : Nat} :
    hexDigit? c = some v ↔
      (0x30 ≤ c.toNat ∧ c.toNat ≤ 0x39 ∧ v = c.toNat - 0x30) ∨
      (0x41 ≤ c.toNat ∧ c.toNat ≤ 0x46 ∧ v = c.toNat - 0x41 + 10) ∨
      (0x61 ≤ c.toNat ∧ c.toNat ≤ 0x66 ∧ v = c.toNat - 0x61 + 10) := by
  unfold hexDigit?
  split_ifs with decimal upper lower
  · rw [Option.some_inj]; omega
  · rw [Option.some_inj]; omega
  · rw [Option.some_inj]; omega
  · exact iff_of_false not_false (by omega)

/-- `DELIM` is space, tab and carriage return (R68). -/
theorem isDelim_iff {c : Byte} : isDelim c = true ↔ c = asciiSP ∨ c = asciiHT ∨ c = asciiCR := by
  simp [isDelim, or_assoc]

theorem isDelim_lf : isDelim asciiLF = false := by decide

/-- A digit is no line feed. -/
theorem ne_lf_of_hexDigit? {c : Byte} {v : Nat} (h : hexDigit? c = some v) : c ≠ asciiLF := by
  rintro rfl
  cases h

/-- A digit is no delimiter. -/
theorem isDelim_of_hexDigit? {c : Byte} {v : Nat} (h : hexDigit? c = some v) : isDelim c = false := by
  rw [Bool.eq_false_iff, ne_eq, isDelim_iff]
  rintro (rfl | rfl | rfl) <;> cases h

/-! ### The class of a byte -/

/-- The four branches of `classOf`, in the order of its tests. -/
theorem classOf_cases (c : Byte) :
    (c = asciiLF ∧ classOf c = .lf) ∨
    (c ≠ asciiLF ∧ isDelim c = true ∧ classOf c = .delim) ∨
    (∃ v, hexDigit? c = some v ∧ classOf c = .hex v) ∨
    (c ≠ asciiLF ∧ isDelim c = false ∧ hexDigit? c = none ∧ classOf c = .other) := by
  by_cases hlf : c = asciiLF
  · exact .inl ⟨hlf, if_pos hlf⟩
  · cases hdelim : isDelim c with
    | true => exact .inr (.inl ⟨hlf, rfl, by rw [classOf, if_neg hlf, hdelim]; rfl⟩)
    | false =>
      cases hdigit : hexDigit? c with
      | some v => exact .inr (.inr (.inl ⟨v, rfl, by rw [classOf, if_neg hlf, hdelim, hdigit]; rfl⟩))
      | none => exact .inr (.inr (.inr ⟨hlf, rfl, rfl, by rw [classOf, if_neg hlf, hdelim, hdigit]; rfl⟩))

theorem classOf_eq_lf_iff {c : Byte} : classOf c = .lf ↔ c = asciiLF := by
  obtain ⟨hlf, hc⟩ | ⟨hlf, -, hc⟩ | ⟨v, hdigit, hc⟩ | ⟨hlf, -, -, hc⟩ := classOf_cases c
  · exact iff_of_true hc hlf
  · exact iff_of_false (by simp [hc]) hlf
  · exact iff_of_false (by simp [hc]) (ne_lf_of_hexDigit? hdigit)
  · exact iff_of_false (by simp [hc]) hlf

theorem classOf_eq_delim_iff {c : Byte} : classOf c = .delim ↔ isDelim c = true := by
  obtain ⟨hlf, hc⟩ | ⟨-, hdelim, hc⟩ | ⟨v, hdigit, hc⟩ | ⟨-, hdelim, -, hc⟩ := classOf_cases c
  · have hdelim : isDelim c = false := hlf ▸ isDelim_lf
    simp [hc, hdelim]
  · simp [hc, hdelim]
  · simp [hc, isDelim_of_hexDigit? hdigit]
  · simp [hc, hdelim]

/-- The digits are tested last, and no digit is caught by an earlier test. -/
theorem classOf_eq_hex_iff {c : Byte} {v : Nat} : classOf c = .hex v ↔ hexDigit? c = some v := by
  constructor
  · intro h
    obtain ⟨-, hc⟩ | ⟨-, -, hc⟩ | ⟨w, hdigit, hc⟩ | ⟨-, -, -, hc⟩ := classOf_cases c <;> rw [hc] at h <;> cases h
    exact hdigit
  · intro hdigit
    rw [classOf, if_neg (ne_lf_of_hexDigit? hdigit), isDelim_of_hexDigit? hdigit, hdigit]
    rfl

/-- `OTHER` is what none of the three other classes holds. -/
theorem classOf_eq_other_iff {c : Byte} :
    classOf c = .other ↔ classOf c ≠ .lf ∧ classOf c ≠ .delim ∧ hexDigit? c = none := by
  obtain ⟨-, hc⟩ | ⟨-, -, hc⟩ | ⟨v, hdigit, hc⟩ | ⟨-, -, hdigit, hc⟩ := classOf_cases c
  · simp [hc]
  · simp [hc]
  · simp [hc, hdigit]
  · simp [hc, hdigit]

/-- Settles O6: the tests of `classOf` exclude one another, so each class is exactly its own test. -/
theorem byteClasses : Obligations.ByteClasses := fun _ =>
  ⟨classOf_eq_lf_iff, classOf_eq_delim_iff.trans isDelim_iff, fun _ => classOf_eq_hex_iff.trans hexDigit?_eq_some_iff,
    classOf_eq_other_iff⟩

end Sys2Proof

/-! SUPPORT. The lookup in the rule table (30_encoding.md R84 to R86): when a row matches, and why no two rows match one
event. -/

namespace Sys2Proof.Machine

/-- 30_encoding.md R85: the three columns of a row that a match compares. -/
theorem Row.matches_iff {row : Row} {cmd : Byte} {st : ProtocolState} {e : EventKind} :
    row.matches cmd st e = true ↔
      (row.cmdChar = none ∨ row.cmdChar = some cmd) ∧ (row.required = none ∨ row.required = some st) ∧
      row.event = e := by
  simp [Row.matches, and_assoc]

/-- Two values of a column that can both be met by one value: one of them is the wildcard (`*` or `Any`), or they agree. -/
def columnsMeet {α : Type} [DecidableEq α] (x y : Option α) : Bool := x = none || y = none || x = y

theorem columnsMeet_of_met {α : Type} [DecidableEq α] {x y : Option α} {a : α} (hx : x = none ∨ x = some a)
    (hy : y = none ∨ y = some a) : columnsMeet x y = true := by
  obtain rfl | rfl := hx
  · simp [columnsMeet]
  · obtain rfl | rfl := hy <;> simp [columnsMeet]

/-- Two rows overlap when no column tells them apart. -/
def Row.overlaps (row row' : Row) : Bool :=
  columnsMeet row.cmdChar row'.cmdChar && columnsMeet row.required row'.required && row.event = row'.event

/-- Rows that match one event overlap. -/
theorem Row.overlaps_of_matches {row row' : Row} {cmd : Byte} {st : ProtocolState} {e : EventKind}
    (h : row.matches cmd st e = true) (h' : row'.matches cmd st e = true) : row.overlaps row' = true := by
  obtain ⟨hcmd, hst, he⟩ := Row.matches_iff.mp h
  obtain ⟨hcmd', hst', he'⟩ := Row.matches_iff.mp h'
  simp [Row.overlaps, columnsMeet_of_met hcmd hcmd', columnsMeet_of_met hst hst', he, he']

/-- The derivation in R85: any two rows of the table differ in command-char, required-state or event. -/
theorem ruleTable_pairwise_not_overlaps : ruleTable.Pairwise (fun row row' => row.overlaps row' = false) := by decide

/-- Rows that all match one event, with no two of them overlapping, are at most one. -/
theorem length_le_one_of_matches {cmd : Byte} {st : ProtocolState} {e : EventKind} :
    ∀ {rows : List Row}, rows.Pairwise (fun row row' => row.overlaps row' = false) →
      (∀ row ∈ rows, row.matches cmd st e = true) → rows.length ≤ 1
  | [], _, _ => Nat.zero_le 1
  | [_], _, _ => Nat.le_refl 1
  | row :: row' :: _, hapart, hmatch => by
    have hoverlap : row.overlaps row' = true := Row.overlaps_of_matches (hmatch row (by simp)) (hmatch row' (by simp))
    have hdiffer : row.overlaps row' = false := List.rel_of_pairwise_cons hapart (by simp)
    exact absurd hoverlap (by simp [hdiffer])

theorem ruleTable_matches_length_le_one (cmd : Byte) (st : ProtocolState) (e : EventKind) :
    (ruleTable.filter (fun row => row.matches cmd st e)).length ≤ 1 :=
  length_le_one_of_matches (ruleTable_pairwise_not_overlaps.filter _) fun _ hrow => (List.mem_filter.mp hrow).2

/-- 40_interpreter.md R103: the lookup takes the first of the matching rows. -/
theorem lookupRow_eq_head? (cmd : Byte) (st : ProtocolState) (e : EventKind) :
    lookupRow cmd st e = (ruleTable.filter (fun row => row.matches cmd st e)).head? := by
  rw [lookupRow, List.head?_filter]

/-- Settles O15: no two rows of the table overlap, so the first match is the only one. -/
theorem ruleTableLookup : Obligations.RuleTableLookup := fun cmd st e =>
  ⟨fun _ _ => Row.matches_iff, lookupRow_eq_head? cmd st e, ruleTable_matches_length_le_one cmd st e⟩

end Sys2Proof.Machine

/-! SUPPORT. The value the streaming lexer holds (40_interpreter.md R97 to R99): what `acc` and `ovf` say of a token's
value, over one digit and over a whole token of digits. -/

namespace Sys2Proof

/-! ### The value of a token of digits -/

theorem hexDigit?_lt {c : Byte} {d : Nat} (h : hexDigit? c = some d) : d < 16 := by
  rw [hexDigit?_eq_some_iff] at h
  omega

/-- The digits of a token that has a value: a first digit, and a value of the rest on top of it. -/
theorem hexValueFrom_cons_eq_some_iff {c : Byte} {cs : Token} {v w : Nat} :
    hexValueFrom v (c :: cs) = some w ↔ ∃ d, hexDigit? c = some d ∧ hexValueFrom (v * 16 + d) cs = some w := by
  rw [hexValueFrom]
  cases hexDigit? c <;> simp

/-- Leading zeros do not change the value (R99). -/
theorem hexValue_replicate_zero_append (zeros : Nat) (t : Token) :
    hexValue (List.replicate zeros 0x30#8 ++ t) = hexValue t := by
  induction zeros with
  | zero => rfl
  | succ zeros ih => rw [← ih]; rfl

theorem hexValue_replicate_zero (zeros : Nat) : hexValue (List.replicate zeros 0x30#8) = some 0 := by
  simpa [hexValue, hexValueFrom] using hexValue_replicate_zero_append zeros []

end Sys2Proof

namespace Sys2Proof.Machine

/-! ### The value in `acc` and `ovf` -/

/-- What R99 says of the lexer after digits of value `v`: `ovf` tells whether `v` is beyond the ten bits of `acc`, and
where it is not, `acc` is `v`. -/
def Lexer.holdsValue (l : Lexer) (v : Nat) : Prop :=
  (v ≤ 0x3FF → l.ovf = false ∧ l.acc.toNat = v) ∧ (0x3FF < v → l.ovf = true)

theorem Lexer.holdsValue.ovf_eq {l : Lexer} {v : Nat} (h : l.holdsValue v) : l.ovf = decide (0x3FF < v) := by
  obtain ⟨hfits, hover⟩ := h
  rcases Nat.lt_or_ge 0x3FF v with hv | hv
  · simp [hover hv, hv]
  · obtain ⟨hovf, -⟩ := hfits hv
    simpa [hovf] using hv

/-- The bound law of R99: the range test of the handlers on `ovf` and `acc` is the test on the value. -/
theorem Lexer.holdsValue.lt_iff {l : Lexer} {v bound : Nat} (h : l.holdsValue v) (hb : bound ≤ 0x3FF) :
    v < bound ↔ l.ovf = false ∧ l.acc.toNat < bound := by
  obtain ⟨hfits, hover⟩ := h
  rcases Nat.lt_or_ge 0x3FF v with hv | hv
  · exact iff_of_false (by omega) (by simp [hover hv])
  · obtain ⟨hovf, hacc⟩ := hfits hv
    simp [hovf, hacc]

/-- Two lexers that hold one value agree in `ovf`. -/
theorem Lexer.holdsValue.ovf_congr {l l' : Lexer} {v : Nat} (h : l.holdsValue v) (h' : l'.holdsValue v) :
    l.ovf = l'.ovf := h.ovf_eq.trans h'.ovf_eq.symm

/-! ### One byte into the lexer -/

/-- R97: a token that begins with a digit holds that digit's value. -/
theorem startToken_holdsValue {c : Byte} {d : Nat} (h : hexDigit? c = some d) : (startToken c).holdsValue d := by
  have hd : d < 16 := hexDigit?_lt h
  refine ⟨fun _ => ⟨rfl, ?_⟩, fun hover => by omega⟩
  simp only [startToken, digitOrZero, h, Option.getD_some, BitVec.toNat_ofNat]
  omega

/-- R98 where the value with the new digit is beyond ten bits, or an earlier one was: `acc` stays. -/
theorem addDigit_of_over {l : Lexer} {d : Nat} (h : l.ovf = true ∨ 0x3FF < l.acc.toNat * 16 + d) :
    l.addDigit d = { l with ovf := true } := if_pos h

/-- R98 where the value with the new digit fits into `acc`. -/
theorem addDigit_of_fits {l : Lexer} {d : Nat} (hovf : l.ovf = false) (h : l.acc.toNat * 16 + d ≤ 0x3FF) :
    l.addDigit d = { l with acc := BitVec.ofNat 10 (l.acc.toNat * 16 + d) } :=
  if_neg (by simpa [hovf] using h)

/-- R98: a digit multiplies the value by 16 and adds to it. An `ovf` once set stays, and rightly: a value beyond the ten
bits only grows. -/
theorem addDigit_holdsValue {l : Lexer} {v : Nat} (d : Nat) (h : l.holdsValue v) :
    (l.addDigit d).holdsValue (v * 16 + d) := by
  obtain ⟨hfits, hover⟩ := h
  rcases Nat.lt_or_ge 0x3FF v with hv | hv
  · rw [addDigit_of_over (.inl (hover hv))]
    exact ⟨fun hsmall => by omega, fun _ => rfl⟩
  · obtain ⟨hovf, rfl⟩ := hfits hv
    rcases Nat.lt_or_ge 0x3FF (l.acc.toNat * 16 + d) with hbig | hsmall
    · rw [addDigit_of_over (.inr hbig)]
      exact ⟨fun hsmall => by omega, fun _ => rfl⟩
    · rw [addDigit_of_fits hovf hsmall]
      exact ⟨fun _ => ⟨hovf, Nat.mod_eq_of_lt (by omega)⟩, fun hbig => by omega⟩

@[simp] theorem addDigit_inTok (d : Nat) (l : Lexer) : (l.addDigit d).inTok = l.inTok := by
  simp only [Lexer.addDigit]; split <;> rfl

@[simp] theorem continueToken_inTok (c : Byte) (l : Lexer) : (l.continueToken c).inTok = l.inTok := by
  cases hc : hexDigit? c <;> simp [Lexer.continueToken, hc]

theorem append_of_inTok {l : Lexer} (c : Byte) (h : l.inTok = true) : l.append c = l.continueToken c := if_pos h

@[simp] theorem append_inTok (c : Byte) (l : Lexer) : (l.append c).inTok = true := by
  unfold Lexer.append
  split
  · next h => rw [continueToken_inTok, h]
  · rfl

/-- A further digit of a token: the counters of the token do not matter to its value. -/
theorem continueToken_holdsValue {l : Lexer} {c : Byte} {v d : Nat} (hd : hexDigit? c = some d) (h : l.holdsValue v) :
    (l.continueToken c).holdsValue (v * 16 + d) := by
  simp only [Lexer.continueToken, hd]
  exact addDigit_holdsValue d h

/-! ### A whole token -/

/-- Within a token, further digits take the lexer's value where they take the grammar's (30_encoding.md R75). -/
theorem foldl_append_holdsValue {t : Token} {l : Lexer} {v w : Nat} (htok : l.inTok = true) (h : l.holdsValue v)
    (hw : hexValueFrom v t = some w) : (t.foldl (fun l c => l.append c) l).holdsValue w := by
  induction t generalizing l v with
  | nil => cases hw; exact h
  | cons c cs ih =>
    obtain ⟨d, hd, hrest⟩ := hexValueFrom_cons_eq_some_iff.mp hw
    have hstep : (l.append c).holdsValue (v * 16 + d) := by
      rw [append_of_inTok c htok]
      exact continueToken_holdsValue hd h
    exact ih (append_inTok c l) hstep hrest

/-- R99: after a non-empty token of digits the lexer holds its value. -/
theorem lexToken_holdsValue {t : Token} {v : Nat} (ht : t ≠ []) (hv : hexValue t = some v) :
    (lexToken t).holdsValue v := by
  cases t with
  | nil => exact absurd rfl ht
  | cons c cs =>
    obtain ⟨d, hd, hrest⟩ := hexValueFrom_cons_eq_some_iff.mp hv
    rw [Nat.zero_mul, Nat.zero_add] at hrest
    exact foldl_append_holdsValue (l := startToken c) rfl (startToken_holdsValue hd) hrest

/-- R99: zeros alone never set `ovf`. -/
theorem lexToken_zeros_ovf (zeros : Nat) : (lexToken (List.replicate zeros 0x30#8)).ovf = false := by
  cases zeros with
  | zero => rfl
  | succ zeros =>
    have hzero := lexToken_holdsValue (List.cons_ne_nil _ _) (hexValue_replicate_zero (zeros + 1))
    exact hzero.ovf_eq

/-- Settles O13: after digits of value `v` the lexer holds `v`, by induction on the token; the bound law and the leading
zeros follow from what it then holds. -/
theorem lexerValueLaw : Obligations.LexerValueLaw := by
  refine ⟨fun t v ht hv => ?_, cellCount_le, by decide⟩
  have hholds : (lexToken t).holdsValue v := lexToken_holdsValue ht hv
  have ⟨hfits, hover⟩ := hholds
  refine ⟨hfits, hover, fun _ => hholds.lt_iff, fun zeros => ⟨lexToken_zeros_ovf zeros, ?_⟩⟩
  have hpadded : (lexToken (List.replicate zeros 0x30#8 ++ t)).holdsValue v :=
    lexToken_holdsValue (by simp [ht]) ((hexValue_replicate_zero_append zeros t).trans hv)
  exact hpadded.ovf_congr hholds

end Sys2Proof.Machine

/-! SUPPORT. A step in which a request byte is accepted (40_interpreter.md R95, R96): it is the byte step of that byte, with
the queue at rest. -/

namespace Sys2Proof.Machine

/-- With an empty queue there is nothing to move (10_state.md R39). -/
theorem moveQueue_of_txq_nil {b : State} (s : State) (h : b.txq = []) : State.moveQueue b s = s := by
  simp [State.moveQueue, State.txTaken, State.txValid, h]

/-- R95 (3): where a byte is accepted, the block's part of the step is the byte step. -/
theorem blockStep_of_accepted {s : State} {c : Byte} (h : s.accepted = some c) :
    blockStep s = byteStep c s.acceptByte := by
  obtain ⟨hready, -⟩ := accepted_eq_some_iff.mp h
  obtain ⟨-, hidle, -, -⟩ := rxReady_iff.mp hready
  simp [blockStep, State.engineIdle, hidle, h]

/-- A byte step that leaves the outputs alone, as the whole clock cycle: the queue was empty, so only the input levels and
the chip's count of cycles move on. -/
theorem step_of_accepted {s u : State} {c : Byte} (h : s.accepted = some c) (hu : byteStep c s.acceptByte = .next u)
    (hbus : u.bus = s.bus) : step s = .next (State.nextPorts { u with chip := u.chip.unchanged }) := by
  obtain ⟨hready, -⟩ := accepted_eq_some_iff.mp h
  obtain ⟨-, -, htxq, hrst⟩ := rxReady_iff.mp hready
  have hchip : u.chip.observe s.bus u.bus = .ok u.chip.unchanged := hbus ▸ observe_same
  rw [step_eq hrst ((blockStep_of_accepted h).trans hu) hchip, moveQueue_of_txq_nil u htxq]

/-- R96: the byte step of a line feed, where nothing is discarded and `st` is no reserved encoding. -/
theorem byteStep_lf {s : State} (hdiscard : s.discard = false) (hst : s.st.reserved = false) :
    byteStep asciiLF s = lfByte s := by
  have hclass : classOf asciiLF = .lf := classOf_eq_lf_iff.mpr rfl
  simp only [byteStep, hdiscard, hclass, hst, Bool.false_eq_true, if_false]

/-- R106: a line feed with no token begun and `st` = `Ready` does nothing. -/
theorem lfByte_of_blank {s : State} (hready : s.st = .ready) (htok : s.lex.inTok = false) : lfByte s = .next s := by
  simp [lfByte, lineEvent, htok, hready]

/-- Settles O18: the line feed of a blank line changes nothing, so the step is no more than its acceptance. -/
theorem emptyLineIgnored : Obligations.EmptyLineIgnored := by
  intro s hready htok hdiscard hlf
  have hst : s.acceptByte.st.reserved = false := by simp [hready, ProtocolState.reserved]
  have hbyte : byteStep asciiLF s.acceptByte = .next s.acceptByte := by
    rw [byteStep_lf (s := s.acceptByte) hdiscard hst, lfByte_of_blank (s := s.acceptByte) hready htok]
  exact step_of_accepted hlf hbyte rfl

end Sys2Proof.Machine

/-! SUPPORT. A command from its line feed to its last `Emit` (40_interpreter.md R111, 41_commands.md R115): how every command
starts, what stays as it is while a command runs outside a programming sequence, and what its last line leaves. -/

namespace Sys2Proof.Machine

/-! ### The start of a command at its line feed -/

/-- The end of a token does not look at the request stream. -/
theorem tokenEvent_acceptByte {s t : State} (h : tokenEvent s = .ok t) :
    tokenEvent s.acceptByte = .ok t.acceptByte := by
  obtain ⟨row, handler, command, hrow, hhandler, hcommand, rfl⟩ := tokenEvent_ok_cases h
  simp only [tokenEvent, State.acceptByte_command, State.acceptByte_st, State.acceptByte_lex, hrow, hhandler, hcommand]
  rfl

theorem atLineEnd_acceptByte {s u : State} (h : s.atLineEnd = .ok u) : s.acceptByte.atLineEnd = .ok u.acceptByte := by
  unfold State.atLineEnd at h ⊢
  rw [State.acceptByte_lex]
  split at h
  · next htok => rw [if_pos htok]; exact tokenEvent_acceptByte h
  · next htok => rw [if_neg htok, Except.ok.inj h]

/-- Before its line event a line feed ends at most the token it stands behind: the lexer is then cleared, and nothing else
changes but the Command register and the protocol state (40_interpreter.md R96, R100). -/
theorem atLineEnd_frame {s u : State} (hinv : Inv s) (h : s.atLineEnd = .ok u) :
    u = { s with command := u.command, lex := clearedLexer, st := u.st } := by
  unfold State.atLineEnd at h
  split at h
  · obtain ⟨row, handler, command, -, -, -, rfl⟩ := tokenEvent_ok_cases h
    rfl
  · next htok =>
    have hlex : s.lex = clearedLexer := hinv.lexer (by simpa using htok)
    cases h
    rw [← hlex]

/-- R96: the byte step of a line feed is the line event at the end of the line, if the token it ends takes no error. -/
theorem lfByte_of_atLineEnd {s u : State} (h : s.atLineEnd = .ok u) : lfByte s = lineEvent u := by
  unfold State.atLineEnd at h
  unfold lfByte
  split at h
  · next htok => rw [if_pos htok, h]
  · next htok => rw [if_neg htok, Except.ok.inj h]

/-- In `Executing` the rule table has the execute row of the live command (30_encoding.md R84). -/
theorem lookupRow_of_live {r : Command} {i : Instr} (h : r.live = some i) :
    ∃ row, lookupRow r.cmd .executing .eol = some row ∧ row.handler.onLine r = some i := by
  unfold Command.live at h
  split_ifs at h with hcmd hcmd hcmd hcmd hcmd hcmd <;> cases h <;> exact ⟨_, by rw [hcmd]; rfl, rfl⟩

theorem cmd_of_live_version {r : Command} (h : r.live = some .version) : r.cmd = cmdV := by
  by_contra hcmd
  unfold Command.live at h
  rw [if_neg hcmd] at h
  split_ifs at h <;> cases h

/-- Row T1, that of `V`, asks for no protocol state (R84). -/
theorem lookupRow_of_live_version {r : Command} (st : ProtocolState) (h : r.live = some .version) :
    ∃ row, lookupRow r.cmd st .eol = some row ∧ row.handler.onLine r = some .version := by
  rw [cmd_of_live_version h]
  cases st <;> exact ⟨_, rfl, rfl⟩

/-- The line event of a complete request is the meaning of its command (40_interpreter.md R103, R111). -/
theorem lineEvent_of_live {u : State} {i : Instr} (hlive : u.command.live = some i)
    (hst : u.st = .executing ∨ i = .version ∧ u.st ≠ .ready) : lineEvent u = exec i u := by
  have hready : u.st ≠ .ready := by
    obtain hexecuting | ⟨-, hready⟩ := hst
    · simp [hexecuting]
    · exact hready
  obtain ⟨row, hrow, hhandler⟩ :
      ∃ row, lookupRow u.command.cmd u.st .eol = some row ∧ row.handler.onLine u.command = some i := by
    obtain hexecuting | ⟨rfl, -⟩ := hst
    · rw [hexecuting]
      exact lookupRow_of_live hlive
    · exact lookupRow_of_live_version u.st hlive
  simp only [lineEvent, hready, hrow, hhandler, if_false]

/-- With the engine idle every command starts (R111). -/
theorem exec_of_idle (i : Instr) {s : State} (h : s.eng.point = .idle) : exec i s = .next (s.start (firstPoint i)) := by
  cases i <;> exact runCommand_idle h

/-- What the state in which a command begins is like: the block is free, the engine idle, nothing queued. -/
theorem State.begins.free {s : State} {i : Instr} (h : s.begins i) :
    s.busy = false ∧ s.eng.point = .idle ∧ s.txq = [] ∧ s.portsNow.rst = false :=
  rxReady_iff.mp (accepted_eq_some_iff.mp h.accepts).1

/-- The cycle in which a command begins accepts the line feed and starts the command; the chip sees no change. -/
theorem State.begins.step {s : State} {i : Instr} (h : s.begins i) :
    ∃ u, s.atLineEnd = .ok u ∧ u.command.live = some i ∧
      exec i u.acceptByte = .next (u.acceptByte.start (firstPoint i)) ∧
      Machine.step s = .next (State.nextPorts
        { u.acceptByte.start (firstPoint i) with chip := (u.acceptByte.start (firstPoint i)).chip.unchanged }) := by
  obtain ⟨u, hline, hlive, hst⟩ := h.line
  obtain ⟨-, hidle, -, -⟩ := h.free
  have hframe := atLineEnd_frame h.inv hline
  have hexec : exec i u.acceptByte = .next (u.acceptByte.start (firstPoint i)) :=
    exec_of_idle i (by rw [hframe]; exact hidle)
  have hbyte : byteStep asciiLF s.acceptByte = .next (u.acceptByte.start (firstPoint i)) := by
    rw [byteStep_lf (s := s.acceptByte) h.keeps h.inv.protocol, lfByte_of_atLineEnd (atLineEnd_acceptByte hline),
      lineEvent_of_live (u := u.acceptByte) hlive hst, hexec]
  exact ⟨u, hline, hlive, hexec, step_of_accepted h.accepts hbyte (by rw [hframe]; rfl)⟩

/-- A command that begins starts (R111). -/
theorem State.begins.starts {s : State} {i : Instr} (h : s.begins i) : s.starts i := by
  obtain ⟨u, hline, -, hexec, hstep⟩ := h.step
  exact ⟨u.acceptByte, _, atLineEnd_acceptByte hline, hexec, hstep, rfl, rfl, rfl, rfl, rfl⟩

/-! ### A command on its way -/

/-- In `t` the command `i`, begun in `s`, goes on outside any programming sequence and has emitted nothing yet. The engine's
registers are `e`; the outputs are `b`, which the chip has seen unchanged for at least `n` cycles. -/
structure State.underway (s : State) (i : Instr) (e : Engine) (b : Bus) (n : Nat) (t : State) : Prop where
  live : t.command.live = some i
  noReset : t.noReset
  executing : t.st = .executing
  keeps : t.discard = false
  lexer : t.lex = clearedLexer
  busy : t.busy = true
  noCause : t.errCause = .none
  queue : t.txq = []
  stream : t.host.rx = s.host.rx.tail
  taken : t.host.taken = s.host.taken
  eng : t.eng = e
  bus : t.bus = b
  held : n ≤ t.chip.held
  chip : t.chip = { s.chip with held := t.chip.held }
  quiet : t.chip.stage = .quiet

/-- Some cycles after `s` the command `i` is on its way with these registers and outputs. -/
def State.reaches (s : State) (i : Instr) (e : Engine) (b : Bus) (n : Nat) : Prop :=
  ∃ k t, runs k s = .next t ∧ s.underway i e b n t

theorem State.underway.eq {s t : State} {i : Instr} {e : Engine} {b : Bus} {n : Nat} (h : s.underway i e b n t) :
    t = { t with eng := e, bus := b } := by
  rw [← h.eng, ← h.bus]

/-- One more cycle at the end of a run. -/
theorem runs_snoc {n : Nat} {s t u : State} (h : runs n s = .next t) (hu : step t = .next u) :
    runs (n + 1) s = .next u := by
  rw [runs_add h, runs_succ hu, runs_zero]

/-- R95 (2): while the engine runs, the block's part of a step is the meaning of the live command. -/
theorem blockStep_of_running {s : State} {i : Instr} (hrun : s.eng.point ≠ .idle) (hlive : s.command.live = some i) :
    blockStep s = exec i s := by
  simp [blockStep, State.engineIdle, hrun, engineStep, hlive]

/-- While the timer stands above 0 a command counts it down and does nothing else (42_programming_engine.md R127). -/
theorem exec_of_waiting (i : Instr) {s : State} (hrun : s.eng.point ≠ .idle) (htmr : s.eng.tmr ≠ 0#32) :
    exec i s = .next s.tick := by
  cases i <;> exact runCommand_wait hrun htmr

/-- From its start on a command is on its way. -/
theorem State.begins.reaches {s : State} {i : Instr} (h : s.begins i) :
    s.reaches i { s.eng with point := firstPoint i, tmr := 0#32 } s.bus 1 := by
  obtain ⟨u, hline, hlive, -, hstep⟩ := h.step
  obtain ⟨-, hidle, htxq, -⟩ := h.free
  obtain ⟨-, -, -, hquiet, htmr⟩ := h.inv.idle hidle
  have hframe := atLineEnd_frame h.inv hline
  refine ⟨1, _, runs_snoc (runs_zero s) hstep, ?_⟩
  rw [hframe, ← htmr]
  exact {
    live := hlive
    noReset := noReset_tail h.noReset rfl
    executing := rfl
    keeps := h.keeps
    lexer := rfl
    busy := rfl
    noCause := rfl
    queue := htxq
    stream := rfl
    taken := rfl
    eng := rfl
    bus := rfl
    held := Nat.le_add_left 1 _
    chip := rfl
    quiet := hquiet }

/-- Outside a programming sequence the chip only counts the cycles for which its inputs stand. -/
theorem observe_quiet_eq {c : Chip} {old new : Bus} (hs : c.stage = .quiet) (hq : new.outsideSequence = true) :
    c.observe old new = .ok { c with held := if new = old then c.held + 1 else 1 } := by
  rw [observe_quiet hs hq]
  split
  · rfl
  · rw [← hs]; rfl

/-- A clock cycle of a command on its way that writes engine registers and outputs only, and starts no programming
sequence. -/
theorem State.underway.step {s t : State} {i : Instr} {e e' : Engine} {b b' : Bus} {n : Nat}
    (h : s.underway i e b n t) (hrun : e.point ≠ .idle) (hquiet : b'.outsideSequence = true)
    (hexec : exec i t = .next { t with eng := e', bus := b' }) :
    ∃ u, Machine.step t = .next u ∧ s.underway i e' b' (if b' = b then n + 1 else 1) u := by
  have hblock := (blockStep_of_running (by rw [h.eng]; exact hrun) h.live).trans hexec
  have hstep := step_eq (noReset_now h.noReset) hblock (observe_quiet_eq h.quiet hquiet)
  rw [moveQueue_of_txq_nil _ h.queue] at hstep
  refine ⟨_, hstep, ?_⟩
  have hheld := h.held
  exact {
    live := h.live
    noReset := noReset_tail h.noReset rfl
    executing := h.executing
    keeps := h.keeps
    lexer := h.lexer
    busy := h.busy
    noCause := h.noCause
    queue := h.queue
    stream := h.stream
    taken := h.taken
    eng := rfl
    bus := rfl
    held := by
      show _ ≤ if b' = t.bus then t.chip.held + 1 else 1
      rw [h.bus]
      split <;> omega
    chip := by rw [h.chip]; rfl
    quiet := h.quiet }

/-- A line that writes engine registers and outputs only, and starts no programming sequence. -/
theorem State.reaches.line {s : State} {i : Instr} {e e' : Engine} {b b' : Bus} {n : Nat} (h : s.reaches i e b n)
    (hrun : e.point ≠ .idle) (hquiet : b'.outsideSequence = true)
    (hexec : ∀ t, s.underway i e b n t → exec i { t with eng := e, bus := b } = .next { t with eng := e', bus := b' }) :
    s.reaches i e' b' 1 := by
  obtain ⟨k, t, hk, ht⟩ := h
  obtain ⟨u, hu, hway⟩ := ht.step hrun hquiet (by rw [ht.eq]; exact hexec t ht)
  refine ⟨k + 1, u, runs_snoc hk hu, { hway with held := le_trans ?_ hway.held }⟩
  split <;> omega

/-- One cycle of a `Wait` (R127). -/
theorem State.reaches.tick {s : State} {i : Instr} {e : Engine} {b : Bus} {n k : Nat}
    (h : s.reaches i { e with tmr := BitVec.ofNat 32 (k + 1) } b n) (hrun : e.point ≠ .idle)
    (hquiet : b.outsideSequence = true) (hk : k + 1 < 2 ^ 32) :
    s.reaches i { e with tmr := BitVec.ofNat 32 k } b (n + 1) := by
  obtain ⟨m, t, hm, ht⟩ := h
  have htmr : BitVec.ofNat 32 (k + 1) ≠ 0#32 := by
    intro h0
    have := congrArg BitVec.toNat h0
    rw [BitVec.toNat_ofNat, Nat.mod_eq_of_lt hk] at this
    exact absurd this (Nat.succ_ne_zero k)
  have hcount : BitVec.ofNat 32 (k + 1) - 1#32 = BitVec.ofNat 32 k := by
    rw [BitVec.ofNat_add, BitVec.add_sub_cancel]
  have hexec : exec i t = .next { t with eng := { e with tmr := BitVec.ofNat 32 k }, bus := b } := by
    rw [ht.eq, exec_of_waiting i hrun htmr, ← hcount]; rfl
  obtain ⟨u, hu, hway⟩ := ht.step hrun hquiet hexec
  rw [if_pos rfl] at hway
  exact ⟨m + 1, u, runs_snoc hm hu, hway⟩

/-- A whole `Wait`: the timer runs out, the outputs stand all the while (R127). -/
theorem State.reaches.wait {s : State} {i : Instr} {e : Engine} {b : Bus} {n k : Nat}
    (h : s.reaches i { e with tmr := BitVec.ofNat 32 k } b n) (hrun : e.point ≠ .idle)
    (hquiet : b.outsideSequence = true) (hk : k < 2 ^ 32) : s.reaches i { e with tmr := 0#32 } b (n + k) := by
  induction k generalizing n with
  | zero => exact h
  | succ k ih =>
    rw [← Nat.add_assoc, Nat.add_right_comm]
    exact ih (h.tick hrun hquiet hk) (by omega)

/-- A state at rest between two lines meets the invariant, whatever is still queued: only the chip's memory, the outputs at
their idle values, the counters and `busy` have to be right (10_state.md R30, R35, R38). -/
theorem inv_of_ready {t : State} (hready : t.st = .ready) (hempty : t.command = emptyCommand)
    (hlex : t.lex = clearedLexer) (hkeeps : t.discard = false) (hpoint : t.eng.point = .idle)
    (hcells : t.chip.cells.wf = true) (haddr : addrInRange t.bus.chipSel t.bus.abus = true)
    (hidle : t.bus.supply = .off ∧ t.bus.en = false ∧ t.bus.progSel = 0x00#8 ∧ t.chip.stage = .quiet ∧
      t.eng.tmr = 0#32)
    (hcount : t.eng.bit.toNat ≤ 8 ∧ t.eng.scanA.toNat ≤ 512) (hbusy : t.busy = !t.txq.isEmpty) : Inv t where
  cells := hcells
  address := haddr
  protocol := by rw [hready]; rfl
  lexer := fun _ => hlex
  token := fun htok => by rw [hlex] at htok; cases htok
  ready := fun _ => hempty
  discarding := fun hdiscard => by rw [hkeeps] at hdiscard; cases hdiscard
  bounds := fun hst => by simp [hready] at hst
  executing := fun hst => by simp [hready] at hst
  idle := fun _ => hidle
  counters := hcount
  busy := by simp [State.engineIdle, hpoint, hbusy]
  running := fun hrun => absurd hpoint hrun

/-- The last line: the response is queued and the command is over (41_commands.md R115 (c), (d), 40_interpreter.md
R112). -/
theorem State.reaches.answers {s : State} {i : Instr} {e : Engine} {b : Bus} {n : Nat} {response : List Byte}
    (h : s.reaches i e b n) (hbegins : s.begins i) (hlast : e.point = .respond) (htmr : e.tmr = 0#32)
    (hoff : b.supply = .off ∧ b.en = false ∧ b.progSel = 0x00#8) (haddr : addrInRange b.chipSel b.abus = true)
    (hcount : e.bit.toNat ≤ 8 ∧ e.scanA.toNat ≤ 512) (hne : response ≠ [])
    (hexec : ∀ t, s.underway i e b n t → exec i t = .next (t.finish response)) :
    ∃ k u, runs k s = .next u ∧ s.answered u response ∧ u.eng = { e with point := .idle } ∧ u.bus = b ∧
      u.chip.cells = s.chip.cells ∧ u.chip.draws = s.chip.draws := by
  obtain ⟨k, t, hk, ht⟩ := h
  obtain ⟨-, -, htxq, -⟩ := hbegins.free
  obtain ⟨hsupply, hen, hsel⟩ := hoff
  have hblock := (blockStep_of_running (by simp [ht.eng, hlast]) ht.live).trans (hexec t ht)
  have hstep := step_eq (noReset_now ht.noReset) hblock (observe_same (c := t.chip) (b := t.bus))
  rw [moveQueue_of_txq_nil _ ht.queue] at hstep
  have hcells : t.chip.cells = s.chip.cells := by rw [ht.chip]
  have hdraws : t.chip.draws = s.chip.draws := by rw [ht.chip]
  have hsocket : t.chip.socket = s.chip.socket := by rw [ht.chip]
  refine ⟨k + 1, _, runs_snoc hk hstep, ?_, by rw [← ht.eng]; rfl, ht.bus, hcells, hdraws⟩
  exact {
    inv := by
      obtain rfl := ht.eng
      obtain rfl := ht.bus
      refine inv_of_ready rfl rfl ht.lexer ht.keeps rfl (hcells ▸ hbegins.inv.cells) haddr
        ⟨hsupply, hen, hsel, ht.quiet, htmr⟩ hcount ?_
      simp [State.finish, ht.queue, ht.busy, hne]
    noReset := noReset_tail ht.noReset rfl
    ended := rfl
    ready := rfl
    emptied := rfl
    lexer := ht.lexer
    keeps := ht.keeps
    noCause := ht.noCause
    off := by
      obtain rfl := ht.bus
      exact ⟨hsupply, hen, hsel⟩
    output := by simp [State.output, ht.queue, ht.taken, htxq]
    stream := ht.stream
    socket := hsocket }

end Sys2Proof.Machine

/-! SUPPORT. The command `K` (41_commands.md R120, R121) on a chip of the selected profile, line by line: the power comes up,
the cells are read in order while they are blank, and the power goes down where the scan stops. -/

namespace Sys2Proof.Machine

/-! ### The least cell that is not blank -/

/-- R121: `firstNonblank` is the least address below `n` of a cell that is not blank, or `n`. -/
theorem firstNonblank_spec (m : Memory) (n : Nat) :
    firstNonblank m n ≤ n ∧ (∀ a, a < firstNonblank m n → readCell m a = 0x00#8) ∧
      (firstNonblank m n < n → readCell m (firstNonblank m n) ≠ 0x00#8) := by
  induction n with
  | zero => simp [firstNonblank]
  | succ n ih =>
    obtain ⟨hle, hbelow, hat⟩ := ih
    rw [firstNonblank]
    split
    · next hlt => exact ⟨by omega, hbelow, fun _ => hat hlt⟩
    · next hlt =>
      have hend : firstNonblank m n = n := by omega
      rw [hend] at hbelow
      split
      · next hcell => exact ⟨by omega, hbelow, fun _ => hcell⟩
      · next hcell =>
        refine ⟨le_rfl, fun a ha => ?_, fun h => absurd h (lt_irrefl _)⟩
        obtain hlt | rfl := Nat.lt_succ_iff_lt_or_eq.mp ha
        · exact hbelow a hlt
        · exact not_not.mp hcell

/-! ### Cell numbers in `scan_a` and on `abus` -/

theorem cellCount_le (chip : Profile) : cellCount chip ≤ 512 := by cases chip <;> decide

theorem toNat_scan {chip : Profile} {a : Nat} (ha : a ≤ cellCount chip) : (BitVec.ofNat 10 a).toNat = a := by
  have := cellCount_le chip
  rw [BitVec.toNat_ofNat]
  omega

theorem toNat_scanAddr {chip : Profile} {a : Nat} (ha : a < cellCount chip) : (BitVec.ofNat 9 a).toNat = a := by
  have := cellCount_le chip
  rw [BitVec.toNat_ofNat]
  omega

theorem addrInRange_scanAddr {chip : Profile} {a : Nat} (ha : a < cellCount chip) :
    addrInRange chip (BitVec.ofNat 9 a) = true := by
  rw [addrInRange, toNat_scanAddr ha]
  exact decide_eq_true ha

theorem scan_truncate (a : Nat) : (BitVec.ofNat 10 a).truncate 9 = BitVec.ofNat 9 a :=
  BitVec.setWidth_ofNat_of_le (by decide) a

theorem scan_zeroExtend {chip : Profile} {a : Nat} (ha : a ≤ cellCount chip) :
    (BitVec.ofNat 10 a).zeroExtend 12 = BitVec.ofNat 12 a := by
  apply BitVec.eq_of_toNat_eq
  rw [BitVec.zeroExtend_eq_setWidth, BitVec.toNat_setWidth, toNat_scan ha, BitVec.toNat_ofNat]

/-! ### The tests of `K` -/

theorem blankCell_of_lt {chip : Profile} {s : State} (h : s.eng.scanA.toNat < cellCount chip) :
    blankCell chip s = s.readAt (s.eng.scanA.truncate 9) := if_pos h

theorem blankCell_of_not_lt {chip : Profile} {s : State} (h : ¬ s.eng.scanA.toNat < cellCount chip) :
    blankCell chip s = s.powerDown := if_neg h

theorem blankStep_of_blank {s : State} (h : s.eng.b = 0x00#8) :
    blankStep s = (s.setScan (s.eng.scanA + 1#10)).goto .blankLoop := if_neg (not_not.mpr h)

theorem blankStep_of_not_blank {s : State} (h : s.eng.b ≠ 0x00#8) : blankStep s = s.powerDown := if_pos h

/-! ### The lines of `K` -/

/-- The engine of a `K` begun in `s`, no wait going on: its line, `scan_a` and the byte read last. -/
def State.blankEngine (s : State) (p : Point) (a : BitVec 10) (c : Byte) : Engine :=
  { s.eng with point := p, scanA := a, tmr := 0#32, b := c }

/-- The outputs while the power is up and no data line is driven (42_programming_engine.md R130, R132). -/
def poweredBus (chip : Profile) (w : CellAddr) (en : Bool) : Bus :=
  { chipSel := chip, abus := w, progSel := 0x00#8, supply := .nominal, en := en }

/-- A powered chip of the selected profile, its outputs held for `N_READ` cycles, answers (20_memory.md R50). -/
theorem readConditions_poweredBus {c : Chip} {chip : Profile} {w : CellAddr} (hmatch : c.socket.matches chip = true)
    (hheld : Config.nRead ≤ c.held) : c.readConditions (poweredBus chip w true) = true := by
  simp [Chip.readConditions, poweredBus, hmatch, hheld]

section
variable {s : State} {chip : Profile} {p : Point} {a : BitVec 10} {c : Byte} {e : Engine} {b b' : Bus} {n : Nat}

theorem exec_blankCheck_of_line {t : State} (heng : t.eng = s.blankEngine p a c) (hrun : p ≠ .idle) :
    exec (.blankCheck chip) t = blankCheckLine chip p t := by
  have hpoint : t.eng.point = p := by rw [heng]; rfl
  rw [← hpoint] at hrun ⊢
  exact runCommand_line hrun (by rw [heng]; rfl)

/-- A line of `K`, no wait going on. -/
theorem State.reaches.blankLine (h : s.reaches (.blankCheck chip) (s.blankEngine p a c) b n) (hrun : p ≠ .idle)
    (hquiet : b'.outsideSequence = true)
    (hline : ∀ t, s.underway (.blankCheck chip) (s.blankEngine p a c) b n t →
      blankCheckLine chip p { t with eng := s.blankEngine p a c, bus := b } = .next { t with eng := e, bus := b' }) :
    s.reaches (.blankCheck chip) e b' 1 :=
  h.line hrun hquiet fun t ht => (exec_blankCheck_of_line rfl hrun).trans (hline t ht)

/-- A wait of `K` before the line at `p`. -/
theorem State.reaches.blankWait {k : Nat}
    (h : s.reaches (.blankCheck chip) { s.blankEngine p a c with tmr := BitVec.ofNat 32 k } b n) (hrun : p ≠ .idle)
    (hquiet : b.outsideSequence = true) (hk : k < 2 ^ 32) :
    s.reaches (.blankCheck chip) (s.blankEngine p a c) b (n + k) :=
  h.wait hrun hquiet hk

end

theorem nPwrup_sub_one_lt : Config.nPwrup - 1 < 2 ^ 32 := by
  have := Config.powerUpFree.isLt
  simp only [Config.nPwrup]
  omega

theorem nRead_sub_one_lt : Config.nRead - 1 < 2 ^ 32 := by
  have := Config.readFree.isLt
  simp only [Config.nRead]
  omega

/-- `K` from its line feed to the head of its loop: the power is up, the output path open, `a` is 0 (R120). -/
theorem blankCheck_reaches_loop {s : State} {chip : Profile} (h : s.begins (.blankCheck chip)) :
    s.reaches (.blankCheck chip) (s.blankEngine .blankLoop 0#10 s.eng.b) (poweredBus chip 0#9 true) 1 := by
  obtain ⟨-, hidle, -, -⟩ := h.free
  obtain ⟨hoff, -, hsel, -, -⟩ := h.inv.idle hidle
  have hcount : s.reaches (.blankCheck chip) (s.blankEngine .countCells s.eng.scanA s.eng.b) s.bus 1 := h.reaches
  have hselect : s.reaches (.blankCheck chip) (s.blankEngine .selectChip s.eng.scanA s.eng.b) s.bus 1 :=
    hcount.blankLine (by decide) (by simp [Bus.outsideSequence, hoff, hsel]) fun _ _ => rfl
  have hpower : s.reaches (.blankCheck chip) (s.blankEngine .powerOn s.eng.scanA s.eng.b)
      { poweredBus chip 0#9 false with supply := .off } 1 :=
    hselect.blankLine (by decide) rfl fun _ _ => by rw [← hoff]; rfl
  have hwait : s.reaches (.blankCheck chip)
      { s.blankEngine .pathOn s.eng.scanA s.eng.b with tmr := BitVec.ofNat 32 (Config.nPwrup - 1) }
      (poweredBus chip 0#9 false) 1 :=
    hpower.blankLine (by decide) rfl fun _ _ => rfl
  have hpath := hwait.blankWait (by decide) rfl nPwrup_sub_one_lt
  have hzero : s.reaches (.blankCheck chip) (s.blankEngine .scanZero s.eng.scanA s.eng.b) (poweredBus chip 0#9 true) 1 :=
    hpath.blankLine (by decide) rfl fun _ _ => rfl
  exact hzero.blankLine (by decide) rfl fun _ _ => rfl

/-- One cell of the loop, up to the test of the byte read: the chip answers the cell (R120, 42_programming_engine.md
R132). -/
theorem blankCheck_reads_cell {s : State} {chip : Profile} (hmatch : s.chip.socket.matches chip = true) {a : Nat}
    (ha : a < cellCount chip) {c : Byte} {w : CellAddr}
    (h : s.reaches (.blankCheck chip) (s.blankEngine .blankLoop (BitVec.ofNat 10 a) c) (poweredBus chip w true) 1) :
    s.reaches (.blankCheck chip) (s.blankEngine .blankTest (BitVec.ofNat 10 a) (readCell s.chip.cells a))
      (poweredBus chip (BitVec.ofNat 9 a) true) 1 := by
  have hscan : (BitVec.ofNat 10 a).toNat < cellCount chip := (toNat_scan ha.le).trans_lt ha
  have hwait : s.reaches (.blankCheck chip)
      { s.blankEngine .readSample (BitVec.ofNat 10 a) c with tmr := BitVec.ofNat 32 (Config.nRead - 1) }
      (poweredBus chip (BitVec.ofNat 9 a) true) 1 :=
    h.blankLine (by decide) rfl fun t _ => by
      rw [blankCheckLine, blankCell_of_lt hscan, ← scan_truncate]
      rfl
  refine (hwait.blankWait (by decide) rfl nRead_sub_one_lt).blankLine (by decide) rfl fun t ht => ?_
  have hsocket : t.chip.socket.matches chip = true := by rw [ht.chip]; exact hmatch
  have hheld : Config.nRead ≤ t.chip.held := by have := ht.held; omega
  have hcell : readCell t.chip.cells (BitVec.ofNat 9 a).toNat = readCell s.chip.cells a := by
    rw [toNat_scanAddr ha, ht.chip]
  rw [← hcell, blankCheckLine, sampleBus_good]
  · rfl
  · exact readConditions_poweredBus hsocket hheld
  · exact addrInRange_scanAddr ha

/-- While the cells read are blank the scan goes on: it comes to every address up to the first that is not (R120). -/
theorem blankCheck_reaches_cell {s : State} {chip : Profile} (h : s.begins (.blankCheck chip))
    (hmatch : s.chip.socket.matches chip = true) {a : Nat} (ha : a ≤ cellCount chip)
    (hblank : ∀ k, k < a → readCell s.chip.cells k = 0x00#8) :
    ∃ c w, addrInRange chip w = true ∧
      s.reaches (.blankCheck chip) (s.blankEngine .blankLoop (BitVec.ofNat 10 a) c) (poweredBus chip w true) 1 := by
  induction a with
  | zero => exact ⟨s.eng.b, 0#9, addrInRange_scanAddr (by cases chip <;> decide), blankCheck_reaches_loop h⟩
  | succ a ih =>
    obtain ⟨c, w, -, hloop⟩ := ih (by omega) fun k hk => hblank k (by omega)
    have htest := blankCheck_reads_cell hmatch ha hloop
    refine ⟨readCell s.chip.cells a, BitVec.ofNat 9 a, addrInRange_scanAddr ha,
      htest.blankLine (by decide) rfl fun t _ => ?_⟩
    rw [blankCheckLine, blankStep_of_blank (hblank a (by omega)), BitVec.ofNat_add]
    rfl

/-- Where the scan stops, at a cell that is not blank or past the last one, the power goes down (R120, R121). -/
theorem blankCheck_reaches_powerOff {s : State} {chip : Profile} (h : s.begins (.blankCheck chip))
    (hmatch : s.chip.socket.matches chip = true) {stop : Nat} (hle : stop ≤ cellCount chip)
    (hbelow : ∀ a, a < stop → readCell s.chip.cells a = 0x00#8)
    (hat : stop < cellCount chip → readCell s.chip.cells stop ≠ 0x00#8) :
    ∃ c w, addrInRange chip w = true ∧
      s.reaches (.blankCheck chip) (s.blankEngine .powerOff (BitVec.ofNat 10 stop) c) (poweredBus chip w false) 1 := by
  obtain ⟨c, w, hw, hloop⟩ := blankCheck_reaches_cell h hmatch hle hbelow
  by_cases hlt : stop < cellCount chip
  · have htest := blankCheck_reads_cell hmatch hlt hloop
    refine ⟨readCell s.chip.cells stop, BitVec.ofNat 9 stop, addrInRange_scanAddr hlt,
      htest.blankLine (by decide) rfl fun t _ => ?_⟩
    rw [blankCheckLine, blankStep_of_not_blank (hat hlt)]
    rfl
  · have hend : ¬ (BitVec.ofNat 10 stop).toNat < cellCount chip := by rwa [toNat_scan hle]
    refine ⟨c, w, hw, hloop.blankLine (by decide) rfl fun t _ => ?_⟩
    rw [blankCheckLine, blankCell_of_not_lt hend]
    rfl

/-- Settles O31: the scan is followed to the least cell that is not blank, or to the end, and from there through
`PowerDown` to the response. -/
theorem blankCheckResult : Obligations.BlankCheckResult := by
  intro s chip hbegins hmatch
  refine ⟨hbegins.starts, ?_⟩
  obtain ⟨hle, hbelow, hat⟩ := firstNonblank_spec s.chip.cells (cellCount chip)
  generalize firstNonblank s.chip.cells (cellCount chip) = stop at hle hbelow hat
  obtain ⟨c, w, hw, hdown⟩ := blankCheck_reaches_powerOff hbegins hmatch hle hbelow hat
  have hrespond : s.reaches (.blankCheck chip) (s.blankEngine .respond (BitVec.ofNat 10 stop) c)
      { poweredBus chip w false with supply := .off } 1 :=
    hdown.blankLine (by decide) rfl fun _ _ => rfl
  obtain ⟨hbit, -⟩ := hbegins.inv.counters
  have hscan : (BitVec.ofNat 10 stop).toNat ≤ 512 := (toNat_scan hle).trans_le (hle.trans (cellCount_le chip))
  obtain ⟨n, t, hrun, hanswered, heng, hbus, hcells, hdraws⟩ :=
    hrespond.answers (response := hex3 (BitVec.ofNat 12 stop) ++ okTrailer) hbegins rfl rfl ⟨rfl, rfl, rfl⟩ hw
      ⟨hbit, hscan⟩ (by simp [hex3]) fun t ht => by
        rw [exec_blankCheck_of_line ht.eng (by decide), blankCheckLine, ht.eng, ← scan_zeroExtend hle]
        rfl
  obtain ⟨-, hidle, -, -⟩ := hbegins.free
  obtain ⟨-, -, -, -, htmr⟩ := hbegins.inv.idle hidle
  refine ⟨n, t, stop, hrun, hle, hbelow, hat, hanswered, ?_, ?_, hcells, hdraws⟩
  · rw [heng, State.blankEngine, ← htmr, ← hidle]
  · rw [hbus]
    rfl

end Sys2Proof.Machine

/-! SUPPORT. A request whose command begins is well formed (10_state.md R26): the bound of the address field was tested when
the address token ended, or is tested by the token that the line feed ends. -/

namespace Sys2Proof.Machine

/-- The rows of the rule table whose token completes a request (30_encoding.md R84). -/
theorem ruleTable_completing_rows : ∀ row ∈ ruleTable, row.event = .tok → row.hint = .executing →
    (row.handler = .hChip ∧ (row.cmdChar = some cmdR ∨ row.cmdChar = some cmdK)) ∨
    (row.handler = .hAddr ∧ row.cmdChar = some cmdr) ∨
    (row.handler = .hValue ∧ row.required = some .waitValue) := by decide

theorem lookupRow_some {cmd : Byte} {st : ProtocolState} {e : EventKind} {row : Row}
    (h : lookupRow cmd st e = some row) : row ∈ ruleTable ∧ row.matches cmd st e = true := by
  unfold lookupRow at h
  have hmatches := List.find?_some h
  exact ⟨List.mem_of_find?_eq_some h, hmatches⟩

/-- A column of a matching row that is no wildcard holds the value matched (R85). -/
theorem eq_of_column {α : Type} {x : Option α} {a b : α} (hmatch : x = none ∨ x = some a) (hx : x = some b) : a = b := by
  obtain hnone | hsome := hmatch
  · cases hnone.symm.trans hx
  · exact Option.some.inj (hsome.symm.trans hx)

theorem handleChip_cmd {l : Lexer} {r r' : Command} (h : handleChip l r = .ok r') : r'.cmd = r.cmd := by
  unfold handleChip at h
  split_ifs at h <;> cases h <;> rfl

/-- The address handler keeps the command byte and tests the bound of the address (40_interpreter.md R109). -/
theorem handleAddr_spec {l : Lexer} {r r' : Command} (h : handleAddr l r = .ok r') :
    r'.cmd = r.cmd ∧ addrInRange r'.chip r'.addr = true := by
  unfold handleAddr at h
  split_ifs at h with hhex hrange
  cases h
  obtain ⟨-, hlt⟩ := not_or.mp hrange
  have hcount := cellCount_le r.chip
  refine ⟨rfl, decide_eq_true ?_⟩
  simp only [BitVec.truncate_eq_setWidth, BitVec.toNat_setWidth]
  omega

theorem handleValue_spec {l : Lexer} {r r' : Command} (h : handleValue l r = .ok r') :
    ∃ value, r' = { r with value := value } := by
  unfold handleValue at h
  split_ifs at h
  cases h
  exact ⟨_, rfl⟩

/-- Whether a request is well formed does not depend on its value field (30_encoding.md R76). -/
theorem wellFormed_of_value {r : Command} {value : Byte} {i : Instr} (hlive : { r with value := value }.live = some i)
    (h : ∀ j, r.live = some j → j.wellFormed = true) : i.wellFormed = true := by
  unfold Command.live at hlive h
  split_ifs at hlive h <;> cases hlive
  all_goals
    have hwellFormed := h _ rfl
    exact hwellFormed

theorem wellFormed_of_scan {r : Command} {i : Instr} (hcmd : r.cmd = cmdR ∨ r.cmd = cmdK) (hlive : r.live = some i) :
    i.wellFormed = true := by
  obtain hcmd | hcmd := hcmd <;> simp only [Command.live, hcmd] at hlive <;> cases hlive <;> rfl

theorem wellFormed_of_read {r : Command} {i : Instr} (hcmd : r.cmd = cmdr) (haddr : addrInRange r.chip r.addr = true)
    (hlive : r.live = some i) : i.wellFormed = true := by
  simp only [Command.live, hcmd] at hlive
  cases hlive
  exact haddr

/-- A token that completes a request leaves a well-formed one. -/
theorem tokenEvent_wellFormed {s u : State} {i : Instr} (hinv : Inv s) (h : tokenEvent s = .ok u)
    (hst : u.st = .executing) (hlive : u.command.live = some i) : i.wellFormed = true := by
  obtain ⟨row, handler, command, hrow, hhandler, hcommand, rfl⟩ := tokenEvent_ok_cases h
  obtain ⟨hmem, hmatches⟩ := lookupRow_some hrow
  obtain ⟨hcmd, hrequired, hevent⟩ := Row.matches_iff.mp hmatches
  obtain ⟨hchip, hscan⟩ | ⟨haddr, hread⟩ | ⟨hvalue, hwait⟩ := ruleTable_completing_rows row hmem hevent hst
  · rw [hchip] at hhandler
    cases hhandler
    refine wellFormed_of_scan ?_ hlive
    rw [handleChip_cmd hcommand]
    exact hscan.imp (eq_of_column hcmd) (eq_of_column hcmd)
  · rw [haddr] at hhandler
    cases hhandler
    obtain ⟨hsame, hrange⟩ := handleAddr_spec hcommand
    exact wellFormed_of_read (hsame.trans (eq_of_column hcmd hread)) hrange hlive
  · rw [hvalue] at hhandler
    cases hhandler
    obtain ⟨value, rfl⟩ := handleValue_spec hcommand
    exact wellFormed_of_value hlive (hinv.bounds (.inl (eq_of_column hrequired hwait)))

/-- A command that begins is one the grammar admits (10_state.md R26, 30_encoding.md R76). -/
theorem State.begins.wellFormed {s : State} {i : Instr} (h : s.begins i) : i.wellFormed = true := by
  obtain ⟨u, hline, hlive, hexecuting | ⟨rfl, -⟩⟩ := h.line
  · unfold State.atLineEnd at hline
    split at hline
    · exact tokenEvent_wellFormed h.inv hline hexecuting hlive
    · cases hline
      exact h.inv.bounds (.inr hexecuting) i hlive
  · rfl

end Sys2Proof.Machine

/-! SUPPORT. The commands `w` and `s` up to the test of `BurnByte` (41_commands.md R123, R124, 42_programming_engine.md R139):
the power comes up, the existing byte is read, the target and the mode are set. -/

namespace Sys2Proof.Machine

/-! ### The two commands as one, over the mode -/

/-- `w` in real mode, `s` in simulate mode (42_programming_engine.md R138). -/
def burnCommand (real : Bool) (chip : Profile) (addr : CellAddr) (value : Byte) : Instr :=
  if real then .program chip addr value else .simulate chip addr value

/-- The engine at a line, no wait going on. -/
def Engine.lineAt (e : Engine) (p : Point) : Engine := { e with point := p, tmr := 0#32 }

@[simp] theorem Engine.lineAt_point (e : Engine) (p : Point) : (e.lineAt p).point = p := rfl

section
variable {real : Bool} {chip : Profile} {addr : CellAddr} {value : Byte} {s : State} {e e' : Engine} {p : Point}
  {b b' : Bus} {n : Nat}

theorem firstPoint_burnCommand : firstPoint (burnCommand real chip addr value) = .selectChip := by
  cases real <;> rfl

theorem wellFormed_burnCommand : (burnCommand real chip addr value).wellFormed = addrInRange chip addr := by
  cases real <;> rfl

theorem exec_burnCommand (real : Bool) (chip : Profile) (addr : CellAddr) (value : Byte) (t : State) :
    exec (burnCommand real chip addr value) t = t.runCommand .selectChip (burnLine real chip addr value) := by
  cases real <;> rfl

/-- With no wait going on `w` and `s` run the line at their point. -/
theorem exec_burnCommand_of_line {t : State} (heng : t.eng = e.lineAt p) (hrun : p ≠ .idle) :
    exec (burnCommand real chip addr value) t = burnLine real chip addr value p t := by
  have hpoint : t.eng.point = p := by rw [heng]; rfl
  rw [exec_burnCommand, runCommand_line (hpoint ▸ hrun) (by rw [heng]; rfl), hpoint]

/-- A line of `w` or `s` outside a programming sequence, no wait going on. -/
theorem State.reaches.burnLine (h : s.reaches (burnCommand real chip addr value) (e.lineAt p) b n) (hrun : p ≠ .idle)
    (hquiet : b'.outsideSequence = true)
    (hline : ∀ t, s.underway (burnCommand real chip addr value) (e.lineAt p) b n t →
      Machine.burnLine real chip addr value p { t with eng := e.lineAt p, bus := b } = .next { t with eng := e', bus := b' }) :
    s.reaches (burnCommand real chip addr value) e' b' 1 :=
  h.line hrun hquiet fun t ht => (exec_burnCommand_of_line rfl hrun).trans (hline t ht)

end

/-! ### Up to the test -/

/-- The engine of `w` and `s` when the existing byte, the target and the mode are set (R123, R124, R139). -/
def State.burnEngine (s : State) (real : Bool) (addr : CellAddr) (value : Byte) : Engine :=
  { s.eng with
    existing := readCell s.chip.cells addr.toNat
    target := value
    real := real
    achieved := readCell s.chip.cells addr.toNat }

section
variable {real : Bool} {chip : Profile} {addr : CellAddr} {value : Byte} {s : State}

/-- From the line feed to the read: the power is up, the output path open (R130). -/
theorem burn_reaches_read (h : s.begins (burnCommand real chip addr value)) :
    s.reaches (burnCommand real chip addr value) (s.eng.lineAt .readAddr) (poweredBus chip 0#9 true) 1 := by
  obtain ⟨-, hidle, -, -⟩ := h.free
  obtain ⟨hoff, -, hsel, -, -⟩ := h.inv.idle hidle
  have hselect : s.reaches (burnCommand real chip addr value) (s.eng.lineAt .selectChip) s.bus 1 := by
    have := h.reaches
    rwa [firstPoint_burnCommand] at this
  have hpower : s.reaches (burnCommand real chip addr value) (s.eng.lineAt .powerOn)
      { poweredBus chip 0#9 false with supply := .off } 1 :=
    hselect.burnLine (by decide) rfl fun _ _ => by rw [← hoff]; rfl
  have hwait : s.reaches (burnCommand real chip addr value)
      { s.eng.lineAt .pathOn with tmr := BitVec.ofNat 32 (Config.nPwrup - 1) } (poweredBus chip 0#9 false) 1 :=
    hpower.burnLine (by decide) rfl fun _ _ => rfl
  have hpath : s.reaches (burnCommand real chip addr value) (s.eng.lineAt .pathOn) (poweredBus chip 0#9 false)
      (1 + (Config.nPwrup - 1)) := hwait.wait (by simp) rfl nPwrup_sub_one_lt
  exact hpath.burnLine (by decide) rfl fun _ _ => rfl

/-- The read of the existing byte: the chip answers the cell (R132, R133). -/
theorem burn_reads_existing (h : s.begins (burnCommand real chip addr value))
    (hmatch : s.chip.socket.matches chip = true) :
    s.reaches (burnCommand real chip addr value)
      ({ s.eng with existing := readCell s.chip.cells addr.toNat }.lineAt .pathOff) (poweredBus chip addr true) 1 := by
  have haddr : addrInRange chip addr = true := wellFormed_burnCommand.symm.trans h.wellFormed
  have hwait : s.reaches (burnCommand real chip addr value)
      { s.eng.lineAt .readSample with tmr := BitVec.ofNat 32 (Config.nRead - 1) } (poweredBus chip addr true) 1 :=
    (burn_reaches_read h).burnLine (by decide) rfl fun _ _ => rfl
  have hsample : s.reaches (burnCommand real chip addr value) (s.eng.lineAt .readSample) (poweredBus chip addr true)
      (1 + (Config.nRead - 1)) := hwait.wait (by simp) rfl nRead_sub_one_lt
  refine hsample.burnLine (by decide) rfl fun t ht => ?_
  have hsocket : t.chip.socket.matches chip = true := by rw [ht.chip]; exact hmatch
  have hheld : Config.nRead ≤ t.chip.held := by have := ht.held; omega
  have hcells : s.chip.cells = t.chip.cells := by rw [ht.chip]
  rw [hcells, burnLine, sampleBus_good]
  · rfl
  · exact readConditions_poweredBus hsocket hheld
  · exact haddr

/-- `w` and `s` from the line feed to the test of `BurnByte`. -/
theorem burn_reaches_test (h : s.begins (burnCommand real chip addr value))
    (hmatch : s.chip.socket.matches chip = true) :
    s.reaches (burnCommand real chip addr value) ((s.burnEngine real addr value).lineAt .burnTest)
      (poweredBus chip addr false) 1 := by
  have hoff : s.reaches (burnCommand real chip addr value)
      ({ s.eng with existing := readCell s.chip.cells addr.toNat }.lineAt .setTarget) (poweredBus chip addr false) 1 :=
    (burn_reads_existing h hmatch).burnLine (by decide) rfl fun _ _ => rfl
  have htarget : s.reaches (burnCommand real chip addr value)
      ({ s.eng with existing := readCell s.chip.cells addr.toNat, target := value, real := real }.lineAt .copyExisting)
      (poweredBus chip addr false) 1 :=
    hoff.burnLine (by decide) rfl fun _ _ => rfl
  exact htarget.burnLine (by decide) rfl fun _ _ => rfl

end

end Sys2Proof.Machine

/-! SUPPORT. A command on its way while the chip changes (20_memory.md R51): the chip is followed cycle by cycle, with what it
has seen of a programming sequence. -/

namespace Sys2Proof.Machine

/-- The state with another engine, other outputs and another chip. -/
def State.standing (e : Engine) (b : Bus) (c : Chip) (t : State) : State := { t with eng := e, bus := b, chip := c }

/-- `t`, but for its engine, its outputs and its chip, is as the command `i`, begun in `s`, leaves the state while it goes on
and has emitted nothing yet. -/
structure State.pending (s : State) (i : Instr) (t : State) : Prop where
  live : t.command.live = some i
  noReset : t.noReset
  executing : t.st = .executing
  keeps : t.discard = false
  lexer : t.lex = clearedLexer
  busy : t.busy = true
  noCause : t.errCause = .none
  queue : t.txq = []
  stream : t.host.rx = s.host.rx.tail
  taken : t.host.taken = s.host.taken

/-- Some cycles after `s` the command `i` goes on, with the engine `e`, the outputs `b` and the chip `c`. -/
def State.comesTo (s : State) (i : Instr) (e : Engine) (b : Bus) (c : Chip) : Prop :=
  ∃ k t, runs k s = .next (t.standing e b c) ∧ s.pending i t

section
variable {s : State} {i : Instr} {e e' : Engine} {b b' : Bus} {c c' : Chip} {n : Nat}

/-- A command on its way outside a programming sequence has met the chip as it was. -/
theorem State.reaches.comesTo (h : s.reaches i e b n) :
    s.chip.stage = .quiet ∧ ∃ held, s.comesTo i e b { s.chip with held := held } := by
  obtain ⟨k, t, hk, ht⟩ := h
  refine ⟨by rw [← ht.quiet, ht.chip], t.chip.held, k, t, ?_, ?_⟩
  · rw [← ht.chip, ← ht.eng, ← ht.bus]
    exact hk
  · exact ⟨ht.live, ht.noReset, ht.executing, ht.keeps, ht.lexer, ht.busy, ht.noCause, ht.queue, ht.stream, ht.taken⟩

/-- A clock cycle of a command that writes engine registers and outputs only, and what the chip makes of the outputs. -/
theorem State.comesTo.step (h : s.comesTo i e b c) (hrun : e.point ≠ .idle) (hobserve : c.observe b b' = .ok c')
    (hexec : ∀ t : State, exec i (t.standing e b c) = .next (t.standing e' b' c)) :
    s.comesTo i e' b' c' := by
  obtain ⟨k, t, hk, ht⟩ := h
  have hblock := (blockStep_of_running (s := t.standing e b c) hrun ht.live).trans (hexec t)
  have hstep := step_eq (noReset_now (s := t.standing e b c) ht.noReset) hblock hobserve
  rw [moveQueue_of_txq_nil (b := t.standing e b c) _ ht.queue] at hstep
  exact ⟨k + 1, t.nextPorts, runs_snoc hk hstep, { ht with noReset := noReset_tail ht.noReset rfl }⟩

/-- A whole `Wait`: the timer runs out, and the chip sees the outputs stand for as many cycles (R127). -/
theorem State.comesTo.wait {p : Point} {k : Nat} (h : s.comesTo i { e.lineAt p with tmr := BitVec.ofNat 32 k } b c)
    (hrun : p ≠ .idle) (hk : k < 2 ^ 32) : s.comesTo i (e.lineAt p) b { c with held := c.held + k } := by
  induction k generalizing c with
  | zero => exact h
  | succ k ih =>
    have htmr : BitVec.ofNat 32 (k + 1) ≠ 0#32 := by
      rw [Ne, ← BitVec.toNat_inj, BitVec.toNat_ofNat, Nat.mod_eq_of_lt hk]
      exact Nat.succ_ne_zero k
    have hcount : BitVec.ofNat 32 (k + 1) - 1#32 = BitVec.ofNat 32 k := by
      rw [BitVec.ofNat_add, BitVec.add_sub_cancel]
    have htick : s.comesTo i { e.lineAt p with tmr := BitVec.ofNat 32 k } b c.unchanged :=
      h.step hrun observe_same fun t => by rw [exec_of_waiting i hrun htmr, ← hcount]; rfl
    have hrest := ih htick (by omega)
    rwa [Chip.unchanged_held, Nat.add_right_comm, Nat.add_assoc] at hrest

/-- The last line, the chip quiet and off: the response is queued and the command is over (41_commands.md R115 (c), (d)). -/
theorem State.comesTo.answers {response : List Byte} (h : s.comesTo i e b c) (hbegins : s.begins i)
    (hlast : e.point = .respond) (htmr : e.tmr = 0#32) (hoff : b.supply = .off ∧ b.en = false ∧ b.progSel = 0x00#8)
    (haddr : addrInRange b.chipSel b.abus = true) (hcount : e.bit.toNat ≤ 8 ∧ e.scanA.toNat ≤ 512)
    (hcells : c.cells.wf = true) (hquiet : c.stage = .quiet) (hsocket : c.socket = s.chip.socket) (hne : response ≠ [])
    (hexec : ∀ t : State, exec i (t.standing e b c) = .next ((t.standing e b c).finish response)) :
    ∃ k u, runs k s = .next u ∧ s.answered u response ∧ u.eng = { e with point := .idle } ∧ u.chip = c.unchanged := by
  obtain ⟨k, t, hk, ht⟩ := h
  obtain ⟨-, -, htxq, -⟩ := hbegins.free
  obtain ⟨hsupply, hen, hsel⟩ := hoff
  have hrun : e.point ≠ .idle := by simp [hlast]
  have hblock := (blockStep_of_running (s := t.standing e b c) hrun ht.live).trans (hexec t)
  have hstep := step_eq (noReset_now (s := t.standing e b c) ht.noReset) hblock (observe_same (c := c) (b := b))
  rw [moveQueue_of_txq_nil (b := t.standing e b c) _ ht.queue] at hstep
  refine ⟨k + 1, _, runs_snoc hk hstep, ?_, rfl, rfl⟩
  exact {
    inv := inv_of_ready rfl rfl ht.lexer ht.keeps rfl hcells haddr ⟨hsupply, hen, hsel, hquiet, htmr⟩ hcount
      (by simp [State.finish, State.standing, ht.queue, ht.busy, hne])
    noReset := noReset_tail ht.noReset rfl
    ended := rfl
    ready := rfl
    emptied := rfl
    lexer := ht.lexer
    keeps := ht.keeps
    noCause := ht.noCause
    off := ⟨hsupply, hen, hsel⟩
    output := by simp [State.output, State.standing, ht.queue, ht.taken, htxq]
    stream := ht.stream
    socket := hsocket }

end

end Sys2Proof.Machine

/-! SUPPORT. One bit in real mode (42_programming_engine.md R134 to R136): the pulse, which the chip takes as one programming
sequence, and the verify, which reads the cell back. -/

namespace Sys2Proof.Machine

theorem nSettle_sub_one_lt : Config.nSettle - 1 < 2 ^ 32 := by
  have := Config.settleFree.isLt
  simp only [Config.nSettle]
  omega

theorem nPulse_sub_one_lt : Config.nPulse - 1 < 2 ^ 32 := by
  have hmax : Config.nPulse ≤ Config.maxDelay := min_le_right _ _
  simp only [Config.maxDelay] at hmax
  omega

theorem nCool_sub_one_lt : Config.nCool - 1 < 2 ^ 32 := by
  have := Config.coolFree.isLt
  simp only [Config.nCool]
  omega

theorem one_add_nSettle_sub_one : 1 + (Config.nSettle - 1) = Config.nSettle :=
  Nat.add_sub_cancel' (Nat.le_add_left 1 _)

theorem one_add_nRead_sub_one : 1 + (Config.nRead - 1) = Config.nRead := Nat.add_sub_cancel' (Nat.le_add_left 1 _)

theorem one_add_nPulse_sub_one : 1 + (Config.nPulse - 1) = Config.nPulse :=
  Nat.add_sub_cancel' (le_min (Nat.le_add_right_of_le (Nat.le_add_left 1 _)) (by decide))

theorem onehot8_ne_zero : ∀ k < 8, onehot8 k ≠ 0x00#8 := by decide

theorem isOnehot_onehot8 : ∀ k < 8, isOnehot (onehot8 k) = true := by decide

/-- The outputs while the data line of bit `k` is driven (R135). -/
def drivenBus (chip : Profile) (addr : CellAddr) (k : Nat) : Bus :=
  { poweredBus chip addr false with progSel := onehot8 k }

section
variable {s : State} {chip : Profile} {addr : CellAddr} {value : Byte} {real : Bool} {e e' : Engine} {p : Point} {b b' : Bus}
  {c c' : Chip} {k : Nat}

/-- A line of `w` or `s`, no wait going on, and what the chip makes of the outputs. -/
theorem State.comesTo.burnLine (h : s.comesTo (burnCommand real chip addr value) (e.lineAt p) b c) (hrun : p ≠ .idle)
    (hobserve : c.observe b b' = .ok c')
    (hline : ∀ t : State, Machine.burnLine real chip addr value p (t.standing (e.lineAt p) b c) =
      .next (t.standing e' b' c)) :
    s.comesTo (burnCommand real chip addr value) e' b' c' :=
  h.step hrun hobserve fun t => (exec_burnCommand_of_line rfl hrun).trans (hline t)

/-- A change of the outputs outside a programming sequence starts the count of cycles anew. -/
theorem observe_quiet_change (hquiet : c.stage = .quiet) (hout : b'.outsideSequence = true) (hne : b' ≠ b) :
    c.observe b b' = .ok (c.toStage .quiet) := by
  rw [observe_quiet hquiet hout, if_neg hne]

/-- The chip takes the line of a bit as the start of a programming sequence. -/
theorem observe_drivenBus (hk : k < 8) (hquiet : c.stage = .quiet) (hmatch : c.socket.matches chip = true)
    (haddr : addrInRange chip addr = true) :
    c.observe (poweredBus chip addr false) (drivenBus chip addr k) = .ok (c.toStage .selected) := by
  have hline := onehot8_ne_zero k hk
  rw [observe_advance]
  · rw [Chip.advance, hquiet]
    exact beginSequence_eq haddr hmatch
  · intro hsame
    exact hline (congrArg Bus.progSel hsame)
  · rintro ⟨-, houtside⟩
    simp [Bus.outsideSequence, drivenBus, hline] at houtside
  · simp [hquiet, Stage.allows, drivesLine, drivenBus, poweredBus, isOnehot_onehot8 k hk]

/-- The pulse after its first line: the chip sees one whole programming sequence, each delay exact, and burns the driven bit
(R135, 20_memory.md R51). -/
theorem State.comesTo.pulse
    (h : s.comesTo (burnCommand real chip addr value) (e.lineAt .burnRaise) (drivenBus chip addr k) (c.toStage .selected))
    (hk : k < 8) :
    s.comesTo (burnCommand real chip addr value) (e.lineAt .verifyEnable) (poweredBus chip addr false)
      ((c.burn (drivenBus chip addr k)).toStage .quiet) := by
  have hraise : s.comesTo (burnCommand real chip addr value)
      { e.lineAt .burnEnable with tmr := BitVec.ofNat 32 (Config.nSettle - 1) }
      { drivenBus chip addr k with supply := .program } (c.toStage .settling) :=
    h.burnLine (by decide)
      (observe_advance (by simp [drivenBus, poweredBus]) (by simp) (by simp [Stage.allows])) fun _ => rfl
  have hsettled := hraise.wait (by decide) nSettle_sub_one_lt
  have henable : s.comesTo (burnCommand real chip addr value)
      { e.lineAt .burnDisable with tmr := BitVec.ofNat 32 (Config.nPulse - 1) }
      { drivenBus chip addr k with supply := .program, en := true } (c.toStage .pulsing) :=
    hsettled.burnLine (by decide)
      (observe_advance (by simp [drivenBus, poweredBus]) (by simp)
        (by simp [Stage.allows, one_add_nSettle_sub_one])) fun _ => rfl
  have hpulsed := henable.wait (by decide) nPulse_sub_one_lt
  have hdisable : s.comesTo (burnCommand real chip addr value) (e.lineAt .burnDrop)
      { drivenBus chip addr k with supply := .program } (c.toStage .pulsed) :=
    hpulsed.burnLine (by decide)
      (observe_advance (by simp [drivenBus, poweredBus]) (by simp)
        (by simp [Stage.allows, one_add_nPulse_sub_one, drivenBus, poweredBus])) fun _ => rfl
  have hdrop : s.comesTo (burnCommand real chip addr value) (e.lineAt .burnRelease) (drivenBus chip addr k)
      (c.toStage .dropped) :=
    hdisable.burnLine (by decide)
      (observe_advance (by simp [drivenBus, poweredBus]) (by simp)
        (by simp [Stage.allows, drivenBus, poweredBus])) fun _ => rfl
  refine hdrop.burnLine (by decide) (observe_advance ?_ (by simp) ?_) fun _ => rfl
  · intro hsame
    exact onehot8_ne_zero k hk (congrArg Bus.progSel hsame).symm
  · simp [Stage.allows, drivenBus, poweredBus]

/-- The verify and the cooldown after it: `ok` is the bit of the cell, read under the read conditions (R134, R136). -/
theorem State.comesTo.verify
    (h : s.comesTo (burnCommand real chip addr value) (e.lineAt .verifyEnable) (poweredBus chip addr false)
      (c.toStage .quiet)) (hmatch : c.socket.matches chip = true) (haddr : addrInRange chip addr = true) :
    ∃ held, s.comesTo (burnCommand real chip addr value)
      ({ e with ok := (readCell c.cells addr.toNat).getLsbD e.bit.toNat }.lineAt .verifyTest) (poweredBus chip addr false)
      { c.toStage .quiet with held := held } := by
  have henable : s.comesTo (burnCommand real chip addr value)
      { e.lineAt .verifySample with tmr := BitVec.ofNat 32 (Config.nRead - 1) } (poweredBus chip addr true)
      (c.toStage .quiet) :=
    h.burnLine (by decide) (observe_quiet_change rfl rfl (by simp [poweredBus])) fun _ => rfl
  have hsample := henable.wait (by decide) nRead_sub_one_lt
  have htaken : s.comesTo (burnCommand real chip addr value)
      { { e with ok := (readCell c.cells addr.toNat).getLsbD e.bit.toNat }.lineAt .verifyTest with
        tmr := BitVec.ofNat 32 (Config.nCool - 1) } (poweredBus chip addr false) (c.toStage .quiet) := by
    refine hsample.burnLine (by decide) (observe_quiet_change rfl rfl (by simp [poweredBus])) fun t => ?_
    rw [Machine.burnLine, sampleBus_good]
    · rfl
    · exact readConditions_poweredBus hmatch one_add_nRead_sub_one.ge
    · exact haddr
  exact ⟨_, htaken.wait (by decide) nCool_sub_one_lt⟩

end

end Sys2Proof.Machine

/-! SUPPORT. The bit loop of `BurnByte` (42_programming_engine.md R139) and the chip it leaves (R141): in real mode the
addressed cell always holds the byte recorded so far, because a bit is recorded exactly when the verify has found it. -/

namespace Sys2Proof.Machine

/-! ### A burnt bit -/

theorem getLsbD_onehot8 {k : Nat} (hk : k < 8) (j : Nat) : (onehot8 k).getLsbD j = decide (j = k) := by
  rw [onehot8, BitVec.getLsbD_ofNat, Nat.testBit_two_pow]
  by_cases hj : j = k
  · simp [hj, hk]
  · simp [hj, Ne.symm hj]

theorem getLsbD_or_onehot8 (v : Byte) {k : Nat} (hk : k < 8) : (v ||| onehot8 k).getLsbD k = true := by
  simp [getLsbD_onehot8 hk]

/-- Setting a bit that is set changes nothing. -/
theorem or_onehot8_of_getLsbD {v : Byte} {k : Nat} (hk : k < 8) (h : v.getLsbD k = true) : v ||| onehot8 k = v := by
  apply BitVec.eq_of_getLsbD_eq
  intro j _
  rw [BitVec.getLsbD_or, getLsbD_onehot8 hk]
  by_cases hj : j = k
  · rw [hj, h, Bool.true_or]
  · simp [hj]

/-- A pulse on one line leaves the bit it has set, or the cell as it was (20_memory.md R51): the bit read back tells which
byte the cell holds. -/
theorem burn_readCell_addressed {c : Chip} (hcells : c.cells.wf = true) (chip : Profile) (addr : CellAddr) {k : Nat}
    (hk : k < 8) :
    readCell (c.burn (drivenBus chip addr k)).cells addr.toNat =
      if (readCell (c.burn (drivenBus chip addr k)).cells addr.toNat).getLsbD k then
        readCell c.cells addr.toNat ||| onehot8 k
      else readCell c.cells addr.toNat := by
  have hcell : readCell (c.burn (drivenBus chip addr k)).cells addr.toNat =
      if Config.fuseBlows c.draws then readCell c.cells addr.toNat ||| onehot8 k else readCell c.cells addr.toNat :=
    (c.burn_readCell (drivenBus chip addr k) hcells addr.toNat).trans (if_pos rfl)
  rw [hcell]
  by_cases hblows : Config.fuseBlows c.draws = true
  · rw [if_pos hblows, if_pos (getLsbD_or_onehot8 _ hk)]
  · rw [if_neg hblows]
    split
    · next hset => exact (or_onehot8_of_getLsbD hk hset).symm
    · rfl

theorem burn_readCell_other {c : Chip} (hcells : c.cells.wf = true) (chip : Profile) {addr : CellAddr} (k : Nat) {a : Nat}
    (ha : a ≠ addr.toNat) : readCell (c.burn (drivenBus chip addr k)).cells a = readCell c.cells a :=
  (c.burn_readCell (drivenBus chip addr k) hcells a).trans (if_neg ha)

/-! ### The chip between two bits -/

/-- The chip outside the pulses of a burn begun in `s`, `v` being the byte achieved so far (R141). -/
structure State.burntTo (s : State) (real : Bool) (addr : CellAddr) (v : Byte) (c : Chip) : Prop where
  socket : c.socket = s.chip.socket
  quiet : c.stage = .quiet
  canonical : c.cells.wf = true
  addressed : real = true → readCell c.cells addr.toNat = v
  others : ∀ a, a ≠ addr.toNat → readCell c.cells a = readCell s.chip.cells a
  simulated : real = false → c.cells = s.chip.cells

section
variable {s : State} {real : Bool} {chip : Profile} {addr : CellAddr} {value : Byte} {v : Byte} {c : Chip} {k : Nat}

/-- How long the outputs have stood does not matter. -/
theorem State.burntTo.withHeld (h : s.burntTo real addr v c) (held : Nat) :
    s.burntTo real addr v { c with held := held } :=
  ⟨h.socket, h.quiet, h.canonical, h.addressed, h.others, h.simulated⟩

/-- In simulate mode the byte achieved is the engine's alone. -/
theorem State.burntTo.record_simulated (h : s.burntTo false addr v c) (w : Byte) : s.burntTo false addr w c :=
  { h with addressed := nofun }

/-- After a pulse the addressed cell holds the byte achieved so far, with the driven bit where the verify finds it. -/
theorem State.burntTo.pulse (h : s.burntTo true addr v c) (chip : Profile) (hk : k < 8) :
    s.burntTo true addr
      (if (readCell (c.burn (drivenBus chip addr k)).cells addr.toNat).getLsbD k then v ||| onehot8 k else v)
      ((c.burn (drivenBus chip addr k)).toStage .quiet) where
  socket := h.socket
  quiet := rfl
  canonical := c.burn_wf _ h.canonical
  addressed := fun _ => by
    rw [← h.addressed rfl]
    exact burn_readCell_addressed h.canonical chip addr hk
  others := fun a ha => (burn_readCell_other h.canonical chip k ha).trans (h.others a ha)
  simulated := nofun

end

/-! ### The tests of the loop -/

section
variable {i k : Nat} {s : State}

theorem bitLoop_of_done (h : nextBit s.eng.existing s.eng.target (8 - i) i = .done) :
    bitLoop i s = (s.setBit 8).powerDown := by
  simp only [bitLoop, h]

theorem bitLoop_of_impossible (h : nextBit s.eng.existing s.eng.target (8 - i) i = .impossible k) :
    bitLoop i s = (s.setBit k).powerDown := by
  simp only [bitLoop, h]

theorem bitLoop_of_burnable_real (h : nextBit s.eng.existing s.eng.target (8 - i) i = .burnable k)
    (hreal : s.eng.real = true) : bitLoop i s = (s.setBit k).selectLine k := by
  simp only [bitLoop, h, hreal, if_true]

theorem bitLoop_of_burnable_simulated (h : nextBit s.eng.existing s.eng.target (8 - i) i = .burnable k)
    (hreal : s.eng.real = false) : bitLoop i s = (s.setBit k).recordBit k := by
  simp only [bitLoop, h, hreal, Bool.false_eq_true, if_false]

theorem verifyTest_of_ok (h : s.eng.ok = true) (hbit : s.eng.bit.toNat = k) : verifyTest s = s.recordBit k := by
  rw [verifyTest, if_pos h, hbit]

theorem verifyTest_of_not_ok (h : s.eng.ok = false) : verifyTest s = s.powerDown := if_neg (by simp [h])

theorem burnTest_of_same (h : s.eng.existing = s.eng.target) : burnTest s = s.powerDown := if_pos h

theorem burnTest_of_differs (h : s.eng.existing ≠ s.eng.target) : burnTest s = bitLoop 0 s := if_neg h

/-- A position at which the loop stops is one of a byte that the loop had not passed. -/
theorem nextBit_impossible_bounds {e t : Byte} (h : nextBit e t (8 - i) i = .impossible k) : i ≤ k ∧ k < 8 := by
  have hspec := nextBit_spec e t (8 - i) i
  rw [h] at hspec
  obtain ⟨hle, hlt, -⟩ := hspec
  omega

theorem nextBit_burnable_bounds {e t : Byte} (h : nextBit e t (8 - i) i = .burnable k) : i ≤ k ∧ k < 8 := by
  have hspec := nextBit_spec e t (8 - i) i
  rw [h] at hspec
  obtain ⟨hle, hlt, -⟩ := hspec
  omega

theorem toNat_bit (hk : k ≤ 8) : (BitVec.ofNat 4 k).toNat = k := by
  rw [BitVec.toNat_ofNat]
  omega

end

/-! ### The loop -/

/-- A burn begun in `s` has come to the line `p` outside a pulse, the power up, with these registers. -/
structure State.burnsAt (s : State) (real : Bool) (chip : Profile) (addr : CellAddr) (value : Byte) (e : Engine)
    (p : Point) : Prop where
  mode : e.real = real
  counters : e.bit.toNat ≤ 8 ∧ e.scanA.toNat ≤ 512
  comes : ∃ c, s.burntTo real addr e.achieved c ∧
    s.comesTo (burnCommand real chip addr value) (e.lineAt p) (poweredBus chip addr false) c

section
variable {s : State} {real : Bool} {chip : Profile} {addr : CellAddr} {value : Byte} {e e' : Engine} {p p' : Point} {i k : Nat}

/-- A line outside a pulse that leaves the outputs as they are. -/
theorem State.burnsAt.next (h : s.burnsAt real chip addr value e p) (hrun : p ≠ .idle) (hmode : e'.real = e.real)
    (hcounters : e'.bit.toNat ≤ 8 ∧ e'.scanA.toNat ≤ 512)
    (hachieved : ∀ c, s.burntTo real addr e.achieved c → s.burntTo real addr e'.achieved c)
    (hline : ∀ (t : State) (c : Chip), burnLine real chip addr value p
      (t.standing (e.lineAt p) (poweredBus chip addr false) c) =
        .next (t.standing (e'.lineAt p') (poweredBus chip addr false) c)) :
    s.burnsAt real chip addr value e' p' := by
  obtain ⟨c, hburnt, hcomes⟩ := h.comes
  exact ⟨hmode.trans h.mode, hcounters, c.unchanged, (hachieved c hburnt).withHeld _,
    hcomes.burnLine hrun observe_same fun t => hline t c⟩

/-- A burnable bit in real mode, up to the test of the verify: `ok` tells whether the cell now holds the bit. -/
theorem State.burnsAt.pulse (h : s.burnsAt true chip addr value e p) (hrun : p ≠ .idle) (hk : k < 8)
    (hmatch : s.chip.socket.matches chip = true) (haddr : addrInRange chip addr = true)
    (hline : ∀ (t : State) (c : Chip), burnLine true chip addr value p
      (t.standing (e.lineAt p) (poweredBus chip addr false) c) =
        .next (((t.standing (e.lineAt p) (poweredBus chip addr false) c).setBit k).selectLine k)) :
    ∃ ok c, s.burntTo true addr (if ok then e.achieved ||| onehot8 k else e.achieved) c ∧
      s.comesTo (burnCommand true chip addr value) ({ e with bit := BitVec.ofNat 4 k, ok := ok }.lineAt .verifyTest)
        (poweredBus chip addr false) c := by
  obtain ⟨c, hburnt, hcomes⟩ := h.comes
  have hsocket : c.socket.matches chip = true := hburnt.socket ▸ hmatch
  have hselect : s.comesTo (burnCommand true chip addr value) ({ e with bit := BitVec.ofNat 4 k }.lineAt .burnRaise)
      (drivenBus chip addr k) (c.toStage .selected) :=
    hcomes.burnLine hrun (observe_drivenBus hk hburnt.quiet hsocket haddr) fun t => hline t c
  obtain ⟨held, hverify⟩ := (hselect.pulse hk).verify hsocket haddr
  rw [toNat_bit hk.le] at hverify
  exact ⟨_, _, (hburnt.pulse chip hk).withHeld held, hverify⟩

/-- A burnable bit: the loop goes on with the bit recorded, or, after a verify that does not find it, the power goes down. -/
theorem State.burnsAt.burnBit (h : s.burnsAt real chip addr value e p) (hrun : p ≠ .idle) (hk : k < 8)
    (hmatch : s.chip.socket.matches chip = true) (haddr : addrInRange chip addr = true)
    (hnext : nextBit e.existing e.target (8 - i) i = .burnable k)
    (hloop : ∀ t : State, t.eng = e.lineAt p → burnLine real chip addr value p t = .next (bitLoop i t)) :
    ∃ e', e'.bit.toNat = k ∧
      (s.burnsAt real chip addr value e' .bitNext ∨ s.burnsAt real chip addr value e' .powerOff) := by
  have hbit : (BitVec.ofNat 4 k).toNat = k := toNat_bit hk.le
  have hcounters : (BitVec.ofNat 4 k).toNat ≤ 8 ∧ e.scanA.toNat ≤ 512 := ⟨hbit.trans_le hk.le, h.counters.2⟩
  cases real with
  | false =>
    refine ⟨{ e with bit := BitVec.ofNat 4 k, achieved := e.achieved ||| onehot8 k }, hbit, .inl <|
      h.next hrun rfl hcounters (fun _ hburnt => hburnt.record_simulated _) fun t c => ?_⟩
    rw [hloop _ rfl, bitLoop_of_burnable_simulated hnext h.mode]
    rfl
  | true =>
    obtain ⟨ok, c, hburnt, hverify⟩ := h.pulse hrun hk hmatch haddr fun t c => by
      rw [hloop _ rfl, bitLoop_of_burnable_real hnext h.mode]
    cases ok with
    | true =>
      refine ⟨{ e with bit := BitVec.ofNat 4 k, ok := true, achieved := e.achieved ||| onehot8 k }, hbit,
        .inl ⟨h.mode, hcounters, _, hburnt.withHeld _, hverify.burnLine (by decide) observe_same fun t => ?_⟩⟩
      rw [burnLine, verifyTest_of_ok rfl hbit]
      rfl
    | false =>
      refine ⟨{ e with bit := BitVec.ofNat 4 k, ok := false }, hbit,
        .inr ⟨h.mode, hcounters, _, hburnt.withHeld _, hverify.burnLine (by decide) observe_same fun t => ?_⟩⟩
      rw [burnLine, verifyTest_of_not_ok rfl]
      rfl

/-- The bit loop from position `i` on ends with the power going down. -/
theorem State.burnsAt.loop (h : s.burnsAt real chip addr value e p) (hrun : p ≠ .idle)
    (hmatch : s.chip.socket.matches chip = true) (haddr : addrInRange chip addr = true)
    (hloop : ∀ t : State, t.eng = e.lineAt p → burnLine real chip addr value p t = .next (bitLoop i t)) :
    ∃ e', s.burnsAt real chip addr value e' .powerOff := by
  induction hleft : 8 - i using Nat.strong_induction_on generalizing i e p with | _ left ih
  cases hnext : nextBit e.existing e.target (8 - i) i with
  | done =>
    refine ⟨{ e with bit := 8#4 }, h.next hrun rfl ⟨le_rfl, h.counters.2⟩ (fun _ => id) fun t c => ?_⟩
    rw [hloop _ rfl, bitLoop_of_done hnext]
    rfl
  | impossible k =>
    obtain ⟨-, hk⟩ := nextBit_impossible_bounds hnext
    refine ⟨{ e with bit := BitVec.ofNat 4 k }, h.next hrun rfl ⟨(toNat_bit hk.le).trans_le hk.le, h.counters.2⟩
      (fun _ => id) fun t c => ?_⟩
    rw [hloop _ rfl, bitLoop_of_impossible hnext]
    rfl
  | burnable k =>
    obtain ⟨hik, hk⟩ := nextBit_burnable_bounds hnext
    obtain ⟨e', hbit, hgoesOn | hstops⟩ := h.burnBit hrun hk hmatch haddr hnext hloop
    · refine ih (8 - (k + 1)) (by omega) hgoesOn (by decide) (fun t ht => ?_) rfl
      have hposition : t.eng.bit.toNat = k := by rw [ht]; exact hbit
      rw [burnLine, hposition]
    · exact ⟨e', hstops⟩

/-- `BurnByte` from its test on: where the byte is the target nothing is done, else the loop runs from bit 0. -/
theorem State.burnsAt.burnTest (h : s.burnsAt real chip addr value e .burnTest)
    (hmatch : s.chip.socket.matches chip = true) (haddr : addrInRange chip addr = true) :
    ∃ e', s.burnsAt real chip addr value e' .powerOff := by
  by_cases hsame : e.existing = e.target
  · refine ⟨e, h.next (by decide) rfl h.counters (fun _ => id) fun t c => ?_⟩
    rw [burnLine, burnTest_of_same hsame]
    rfl
  · refine h.loop (i := 0) (by decide) hmatch haddr fun t ht => ?_
    rw [burnLine, burnTest_of_differs (by rw [ht]; exact hsame)]

end

/-! ### The whole command -/

section
variable {s : State} {real : Bool} {chip : Profile} {addr : CellAddr} {value : Byte} {e : Engine}

/-- At the test of `BurnByte` the byte achieved is the existing one, which the cell holds (R139). -/
theorem burn_burnsAt_test (h : s.begins (burnCommand real chip addr value)) (hmatch : s.chip.socket.matches chip = true) :
    s.burnsAt real chip addr value (s.burnEngine real addr value) .burnTest := by
  obtain ⟨hquiet, held, hcomes⟩ := (burn_reaches_test h hmatch).comesTo
  have hburnt : s.burntTo real addr (readCell s.chip.cells addr.toNat) s.chip :=
    ⟨rfl, hquiet, h.inv.cells, fun _ => rfl, fun _ _ => rfl, fun _ => rfl⟩
  exact ⟨rfl, h.inv.counters, _, hburnt.withHeld held, hcomes⟩

/-- From the end of `BurnByte` the power goes off and the achieved byte is answered (41_commands.md R123, R124). -/
theorem State.burnsAt.answers (h : s.burnsAt real chip addr value e .powerOff)
    (hbegins : s.begins (burnCommand real chip addr value)) :
    ∃ n t, runs n s = .next t ∧ s.answered t (hex2 e.achieved ++ okTrailer) ∧ t.eng.achieved = e.achieved ∧
      s.burntTo real addr e.achieved t.chip := by
  obtain ⟨c, hburnt, hcomes⟩ := h.comes
  have haddr : addrInRange chip addr = true := wellFormed_burnCommand.symm.trans hbegins.wellFormed
  have hoff : s.comesTo (burnCommand real chip addr value) (e.lineAt .respond)
      { poweredBus chip addr false with supply := .off } (c.toStage .quiet) :=
    hcomes.burnLine (by decide) (observe_quiet_change hburnt.quiet rfl (by simp [poweredBus])) fun _ => rfl
  obtain ⟨n, t, hrun, hanswered, heng, hchip⟩ := hoff.answers (response := hex2 e.achieved ++ okTrailer) hbegins rfl rfl
    ⟨rfl, rfl, rfl⟩ haddr h.counters hburnt.canonical rfl hburnt.socket (by simp [hex2]) fun t =>
      exec_burnCommand_of_line (p := .respond) rfl (by decide)
  refine ⟨n, t, hrun, hanswered, by rw [heng]; rfl, ?_⟩
  rw [hchip]
  exact { hburnt with quiet := rfl }

/-- R141, for both modes: the command answers the byte it achieves, and the chip is as a burn to that byte leaves it. -/
theorem burn_answers_achieved (h : s.begins (burnCommand real chip addr value))
    (hmatch : s.chip.socket.matches chip = true) :
    ∃ n t, runs n s = .next t ∧ s.answered t (hex2 t.eng.achieved ++ okTrailer) ∧
      s.burntTo real addr t.eng.achieved t.chip := by
  have haddr : addrInRange chip addr = true := wellFormed_burnCommand.symm.trans h.wellFormed
  obtain ⟨e, hdone⟩ := (burn_burnsAt_test h hmatch).burnTest hmatch haddr
  obtain ⟨n, t, hrun, hanswered, hachieved, hburnt⟩ := hdone.answers h
  exact ⟨n, t, hrun, hachieved ▸ hanswered, hachieved ▸ hburnt⟩

end

/-- Settles O34: the burn is followed bit by bit to its response, the addressed cell holding the byte achieved so far in real
mode and no cell changing in simulate mode. -/
theorem cellsAfterBurn : Obligations.CellsAfterBurn := by
  refine ⟨fun s chip addr value hbegins hmatch => ⟨hbegins.starts, ?_⟩,
    fun s chip addr value hbegins hmatch => ⟨hbegins.starts, ?_⟩⟩
  · obtain ⟨n, t, hrun, hanswered, hburnt⟩ := burn_answers_achieved (real := true) hbegins hmatch
    exact ⟨n, t, hrun, hanswered, hburnt.addressed rfl, hburnt.others⟩
  · obtain ⟨n, t, hrun, hanswered, hburnt⟩ := burn_answers_achieved (real := false) hbegins hmatch
    exact ⟨n, t, hrun, hanswered, hburnt.simulated rfl⟩

end Sys2Proof.Machine

/-! SUPPORT. The error transition at the byte that ends the bad event (60_exceptions.md R149): with `byteCause` as the cause,
the byte step is the raise of it, whichever event of R96 it comes from. -/

namespace Sys2Proof.Machine

/-! ### The cause does not look at the request stream -/

theorem tokenEvent_acceptByte_eq (s : State) : tokenEvent s.acceptByte = (tokenEvent s).map State.acceptByte := by
  simp only [tokenEvent, State.acceptByte_command, State.acceptByte_st, State.acceptByte_lex]
  cases lookupRow s.command.cmd s.st .tok with
  | none => rfl
  | some row =>
    dsimp only
    cases row.handler.onToken with
    | none => rfl
    | some handler =>
      dsimp only
      cases handler s.lex s.command <;> rfl

theorem atLineEnd_acceptByte_eq (s : State) : s.acceptByte.atLineEnd = s.atLineEnd.map State.acceptByte := by
  unfold State.atLineEnd
  rw [State.acceptByte_lex, tokenEvent_acceptByte_eq]
  split <;> rfl

/-- An acceptance leaves the cause of the byte's error as it is. -/
theorem byteCause_acceptByte (s : State) (c : Byte) : s.acceptByte.byteCause c = s.byteCause c := by
  unfold State.byteCause
  rw [atLineEnd_acceptByte_eq]
  cases s.atLineEnd <;> rfl

/-! ### Where a byte's error comes from -/

theorem atLineEnd_error_iff {s : State} {cause : Cause} :
    s.atLineEnd = .error cause ↔ s.lex.inTok = true ∧ tokenEvent s = .error cause := by
  unfold State.atLineEnd
  split <;> simp [*]

theorem lineCause_eq_some_iff {u : State} {cause : Cause} :
    u.lineCause = some cause ↔ cause = .noRule ∧ u.st ≠ .ready ∧ lookupRow u.command.cmd u.st .eol = none := by
  unfold State.lineCause
  split
  · next h => simp [h, eq_comm]
  · next h => simp [h]

/-- A byte's error is that of the token it ends, or, for an LF, of the line (40_interpreter.md R96). -/
theorem byteCause_cases {s : State} {c : Byte} {cause : Cause} (h : s.byteCause c = some cause) :
    (classOf c = .delim ∧ s.atLineEnd = .error cause) ∨
    (classOf c = .lf ∧ s.atLineEnd = .error cause) ∨
    (classOf c = .lf ∧ ∃ u, s.atLineEnd = .ok u ∧ u.lineCause = some cause) := by
  unfold State.byteCause at h
  split at h
  · next hclass =>
    split at h
    · next cause' herror =>
      obtain rfl : cause' = cause := Option.some.inj h
      obtain hdelim | hlf := hclass
      · exact .inl ⟨hdelim, herror⟩
      · exact .inr (.inl ⟨hlf, herror⟩)
    · next u hok =>
      split at h
      · next hlf => exact .inr (.inr ⟨hlf, u, hok, h⟩)
      · cases h
  · cases h

/-! ### The byte step is the raise -/

/-- The error transition keeps nothing of what a token writes (R149), so it is the same before and after one. -/
theorem raise_of_atLineEnd {s u : State} (h : s.atLineEnd = .ok u) (cause : Cause) (term : Terminator) :
    u.raise cause term = s.raise cause term := by
  unfold State.atLineEnd at h
  split at h
  · obtain ⟨row, handler, command, -, -, -, rfl⟩ := tokenEvent_ok_cases h
    rfl
  · rw [Except.ok.inj h]

theorem delimByte_of_error {s : State} {cause : Cause} (h : s.atLineEnd = .error cause) :
    delimByte s = .next (s.raise cause .delim) := by
  obtain ⟨htok, herror⟩ := atLineEnd_error_iff.mp h
  simp only [delimByte, htok, herror, if_true]

theorem lfByte_of_error {s : State} {cause : Cause} (h : s.atLineEnd = .error cause) :
    lfByte s = .next (s.raise cause .lf) := by
  obtain ⟨htok, herror⟩ := atLineEnd_error_iff.mp h
  simp only [lfByte, htok, herror, if_true]

theorem lineEvent_of_lineCause {u : State} {cause : Cause} (h : u.lineCause = some cause) :
    lineEvent u = .next (u.raise cause .lf) := by
  obtain ⟨rfl, hready, hrow⟩ := lineCause_eq_some_iff.mp h
  simp only [lineEvent, hready, hrow, if_false]

/-- R96: the byte step of a delimiter, where nothing is discarded and `st` is no reserved encoding. -/
theorem byteStep_delim {s : State} {c : Byte} (hclass : classOf c = .delim) (hdiscard : s.discard = false)
    (hst : s.st.reserved = false) : byteStep c s = delimByte s := by
  simp only [byteStep, hdiscard, hclass, hst, Bool.false_eq_true, if_false]

/-- The byte that ends the bad event raises its cause, with itself as the terminator. -/
theorem byteStep_of_byteCause {s : State} {c : Byte} {cause : Cause} (hst : s.st.reserved = false)
    (hdiscard : s.discard = false) (h : s.byteCause c = some cause) :
    ∃ term, byteStep c s = .next (s.raise cause term) ∧ (term = .delim ↔ c ≠ asciiLF) := by
  obtain ⟨hdelim, herror⟩ | ⟨hlf, herror⟩ | ⟨hlf, u, hok, hline⟩ := byteCause_cases h
  · have hne : c ≠ asciiLF := fun hc => by cases hdelim.symm.trans (classOf_eq_lf_iff.mpr hc)
    exact ⟨.delim, by rw [byteStep_delim hdelim hdiscard hst, delimByte_of_error herror], iff_of_true rfl hne⟩
  · obtain rfl := classOf_eq_lf_iff.mp hlf
    exact ⟨.lf, by rw [byteStep_lf hdiscard hst, lfByte_of_error herror], by simp⟩
  · obtain rfl := classOf_eq_lf_iff.mp hlf
    refine ⟨.lf, ?_, by simp⟩
    rw [byteStep_lf hdiscard hst, lfByte_of_atLineEnd hok, lineEvent_of_lineCause hline, raise_of_atLineEnd hok]

/-- Settles O19: the byte step is the raise of the cause, and the rest of the cycle only moves the input levels and the
chip's count of cycles on. -/
theorem errorTransition : Obligations.ErrorTransition := by
  intro s c cause hst hdiscard haccepted hcause
  obtain ⟨term, hbyte, hterm⟩ := byteStep_of_byteCause (s := s.acceptByte) hst hdiscard
    ((byteCause_acceptByte s c).trans hcause)
  exact ⟨_, step_of_accepted haccepted hbyte rfl, rfl, rfl, rfl, rfl, rfl, rfl, decide_eq_decide.mpr hterm, rfl, rfl, rfl,
    rfl⟩

end Sys2Proof.Machine

/-! SUPPORT. A step with reset (70_reset_and_hazards.md R165), and how the supply moves (R171): a command's lines move it at
four points only, and the invariant says how the other outputs stand there. -/

namespace Sys2Proof.Machine

/-! ### A step with reset -/

theorem rxReady_of_rst {s : State} (h : s.portsNow.rst = true) : s.rxReady = false := by
  simp [State.rxReady, h]

theorem step_of_rst {s : State} (h : s.portsNow.rst = true) : step s = .next s.resetStep := by
  simp [step, clockStep, h]

/-- After a reset only a further reset keeps the block from accepting a byte. -/
theorem rxReady_resetStep {s : State} (h : s.resetStep.portsNow.rst = false) : s.resetStep.rxReady = true :=
  rxReady_iff.mpr ⟨rfl, rfl, rfl, h⟩

/-- Settles O2: the step is `State.resetStep`, whose registers are those of the reset state. -/
theorem resetStep : Obligations.ResetStep := fun s hrst =>
  ⟨rxReady_of_rst hrst, s.resetStep, step_of_rst hrst, rfl, rfl, rfl, rfl, rfl, rfl, rfl, rfl, rfl, rfl, rxReady_resetStep⟩

/-! ### The lines that move the supply -/

/-- The level that the line at a point drives on `supply`, if it drives one (42_programming_engine.md R130, R131, R135). -/
def Point.drivesSupply : Point → Option Supply
  | .powerOn => some .nominal
  | .burnRaise => some .program
  | .burnDrop => some .nominal
  | .powerOff => some .off
  | _ => none

theorem Point.drivesSupply_cases {p : Point} {v : Supply} (h : p.drivesSupply = some v) :
    (p = .powerOn ∧ v = .nominal) ∨ (p = .burnRaise ∧ v = .program) ∨ (p = .burnDrop ∧ v = .nominal) ∨
    (p = .powerOff ∧ v = .off) := by
  cases p <;> simp_all [Point.drivesSupply]

/-- The outputs go from `old` to `new` with the engine at `p`: the supply stays, or the line at `p` drives it and nothing
else. -/
def Point.movesSupply (p : Point) (old new : Bus) : Prop :=
  new.supply = old.supply ∨ ∃ v, p.drivesSupply = some v ∧ new = { old with supply := v }

@[simp] theorem bitLoop_bus_supply (i : Nat) (s : State) : (bitLoop i s).bus.supply = s.bus.supply := by
  unfold bitLoop
  split
  · rfl
  · rfl
  · split <;> rfl

@[simp] theorem burnTest_bus_supply (s : State) : (burnTest s).bus.supply = s.bus.supply := by
  unfold burnTest; split <;> simp

@[simp] theorem verifyTest_bus_supply (s : State) : (verifyTest s).bus.supply = s.bus.supply := by
  unfold verifyTest; split <;> simp

@[simp] theorem scanCell_bus_supply (chip : Profile) (a : BitVec 10) (s : State) :
    (scanCell chip a s).bus.supply = s.bus.supply := by
  unfold scanCell; split <;> simp

@[simp] theorem blankCell_bus_supply (chip : Profile) (s : State) : (blankCell chip s).bus.supply = s.bus.supply := by
  unfold blankCell; split <;> simp

@[simp] theorem blankStep_bus_supply (s : State) : (blankStep s).bus.supply = s.bus.supply := by
  unfold blankStep; split <;> simp

theorem sampleBus_bus_supply {s u : State} {line : Byte → State → State} (h : s.sampleBus line = .next u)
    (hline : ∀ b t, (line b t).bus.supply = t.bus.supply) : u.bus.supply = s.bus.supply := by
  obtain ⟨b, c, -, rfl⟩ := sampleBus_cases h
  exact hline b _

theorem versionLine_movesSupply {p : Point} {s u : State} (h : versionLine p s = .next u) :
    p.movesSupply s.bus u.bus := by
  cases p with
  | respond => cases h; exact .inl rfl
  | _ => cases h

theorem readAllLine_movesSupply {chip : Profile} {p : Point} {s u : State} (h : readAllLine chip p s = .next u) :
    p.movesSupply s.bus u.bus := by
  cases p with
  | powerOn => cases h; exact .inr ⟨_, rfl, rfl⟩
  | powerOff => cases h; exact .inr ⟨_, rfl, rfl⟩
  | readSample =>
    simp only [readAllLine] at h
    exact .inl (sampleBus_bus_supply h fun _ _ => rfl)
  | _ => cases h <;> exact .inl (by simp)

theorem blankCheckLine_movesSupply {chip : Profile} {p : Point} {s u : State} (h : blankCheckLine chip p s = .next u) :
    p.movesSupply s.bus u.bus := by
  cases p with
  | powerOn => cases h; exact .inr ⟨_, rfl, rfl⟩
  | powerOff => cases h; exact .inr ⟨_, rfl, rfl⟩
  | readSample =>
    simp only [blankCheckLine] at h
    exact .inl (sampleBus_bus_supply h fun _ _ => rfl)
  | _ => cases h <;> exact .inl (by simp)

theorem readByteLine_movesSupply {chip : Profile} {addr : CellAddr} {p : Point} {s u : State}
    (h : readByteLine chip addr p s = .next u) : p.movesSupply s.bus u.bus := by
  cases p with
  | powerOn => cases h; exact .inr ⟨_, rfl, rfl⟩
  | powerOff => cases h; exact .inr ⟨_, rfl, rfl⟩
  | readSample =>
    simp only [readByteLine] at h
    exact .inl (sampleBus_bus_supply h fun _ _ => rfl)
  | _ => cases h <;> exact .inl (by simp)

theorem burnLine_movesSupply {real : Bool} {chip : Profile} {addr : CellAddr} {value : Byte} {p : Point} {s u : State}
    (h : burnLine real chip addr value p s = .next u) : p.movesSupply s.bus u.bus := by
  cases p with
  | powerOn => cases h; exact .inr ⟨_, rfl, rfl⟩
  | burnRaise => cases h; exact .inr ⟨_, rfl, rfl⟩
  | burnDrop => cases h; exact .inr ⟨_, rfl, rfl⟩
  | powerOff => cases h; exact .inr ⟨_, rfl, rfl⟩
  | readSample =>
    simp only [burnLine] at h
    exact .inl (sampleBus_bus_supply h fun _ _ => rfl)
  | verifySample => exact .inl (sampleBus_bus_supply h fun _ _ => rfl)
  | _ => cases h <;> exact .inl (by simp)

/-- The start of a command and its waits leave the supply alone. -/
theorem runCommand_movesSupply {first : Point} {line : Point → State → Result} {s u : State}
    (hline : ∀ p v, line p s = .next v → p.movesSupply s.bus v.bus) (h : s.runCommand first line = .next u) :
    s.eng.point.movesSupply s.bus u.bus := by
  obtain ⟨-, rfl⟩ | ⟨-, -, rfl⟩ | ⟨-, -, hl⟩ := runCommand_cases h
  · exact .inl rfl
  · exact .inl rfl
  · exact hline _ _ hl

theorem exec_movesSupply {i : Instr} {s u : State} (h : exec i s = .next u) : s.eng.point.movesSupply s.bus u.bus := by
  cases i with
  | version => exact runCommand_movesSupply (fun _ _ => versionLine_movesSupply) h
  | readAll chip => exact runCommand_movesSupply (fun _ _ => readAllLine_movesSupply) h
  | blankCheck chip => exact runCommand_movesSupply (fun _ _ => blankCheckLine_movesSupply) h
  | readByte chip addr => exact runCommand_movesSupply (fun _ _ => readByteLine_movesSupply) h
  | program chip addr value => exact runCommand_movesSupply (fun _ _ => burnLine_movesSupply) h
  | simulate chip addr value => exact runCommand_movesSupply (fun _ _ => burnLine_movesSupply) h

/-! ### With the engine idle a step leaves the outputs alone -/

@[simp] theorem discardByte_bus (c : Byte) (s : State) : (s.discardByte c).bus = s.bus := by
  unfold State.discardByte; split <;> rfl

theorem tokenEvent_eng_bus {s t : State} (h : tokenEvent s = .ok t) : t.eng = s.eng ∧ t.bus = s.bus := by
  obtain ⟨row, handler, command, -, -, -, rfl⟩ := tokenEvent_ok_cases h
  exact ⟨rfl, rfl⟩

theorem lineEvent_bus {s u : State} (hidle : s.eng.point = .idle) (h : lineEvent s = .next u) : u.bus = s.bus := by
  obtain ⟨-, rfl⟩ | ⟨-, rfl⟩ | ⟨-, row, i, -, -, hexec⟩ := lineEvent_cases h
  · rfl
  · simp
  · rw [exec_of_idle i hidle] at hexec
    cases hexec
    simp

theorem delimByte_bus {s u : State} (h : delimByte s = .next u) : u.bus = s.bus := by
  unfold delimByte at h
  split at h
  · split at h
    · cases h; simp
    · next t ht =>
      obtain ⟨-, hbus⟩ := tokenEvent_eng_bus ht
      cases h; exact hbus
  · cases h; rfl

theorem lfByte_bus {s u : State} (hidle : s.eng.point = .idle) (h : lfByte s = .next u) : u.bus = s.bus := by
  unfold lfByte at h
  split at h
  · split at h
    · cases h; simp
    · next t ht =>
      obtain ⟨heng, hbus⟩ := tokenEvent_eng_bus ht
      exact (lineEvent_bus (by rw [heng, hidle]) h).trans hbus
  · exact lineEvent_bus hidle h

theorem byteStep_bus {c : Byte} {s u : State} (hidle : s.eng.point = .idle) (h : byteStep c s = .next u) :
    u.bus = s.bus := by
  obtain ⟨-, rfl⟩ | ⟨-, rfl⟩ | ⟨-, -, -, hdelim⟩ | ⟨-, -, -, hlf⟩ := byteStep_cases h
  · simp
  · rfl
  · exact delimByte_bus hdelim
  · exact lfByte_bus hidle hlf

/-! ### How the supply moves in a step -/

theorem blockStep_movesSupply {s u : State} (h : blockStep s = .next u) : s.eng.point.movesSupply s.bus u.bus := by
  obtain ⟨-, -, rfl⟩ | ⟨hidle, c, -, hbyte⟩ | ⟨-, i, -, hexec⟩ := blockStep_cases h
  · exact .inl rfl
  · exact .inl (congrArg Bus.supply (byteStep_bus (s := s.acceptByte) hidle hbyte))
  · exact exec_movesSupply hexec

/-- With no reset, the outputs after a step are those the block's part has left. -/
theorem step_movesSupply {s t : State} (hrst : s.portsNow.rst = false) (h : step s = .next t) :
    s.eng.point.movesSupply s.bus t.bus := by
  obtain ⟨hreset, -⟩ | ⟨-, u, c, hblock, -, rfl⟩ := step_cases h
  · simp [hrst] at hreset
  · simpa using blockStep_movesSupply hblock

/-- While the engine runs, the outputs stand as the lines of the live command have left them. -/
theorem Inv.engineOk {s : State} (hinv : Inv s) (hrun : s.eng.point ≠ .idle) :
    ∃ i, s.command.live = some i ∧ EngineOk i s := by
  obtain ⟨-, -, -, -, hlive⟩ := hinv.running hrun
  exact hlive

/-- The four moves of the supply in a step with no reset, and how the other outputs stand at each (R171). -/
theorem Inv.supply_step_cases {s t : State} (hinv : Inv s) (hrst : s.portsNow.rst = false) (h : step s = .next t) :
    t.bus.supply = s.bus.supply ∨
    (s.bus.supply = .off ∧ t.bus.supply = .nominal) ∨
    (s.bus.supply = .nominal ∧ s.bus.en = false ∧ isOnehot s.bus.progSel = true ∧
      t.bus = { s.bus with supply := .program }) ∨
    (s.bus.supply = .program ∧ s.bus.en = false ∧ t.bus.supply = .nominal) ∨
    (s.bus.supply = .nominal ∧ s.bus.en = false ∧ s.bus.progSel = 0x00#8 ∧ t.bus.supply = .off) := by
  obtain hsame | ⟨v, hdrives, hbus⟩ := step_movesSupply hrst h
  · exact .inl hsame
  · have hrun : s.eng.point ≠ .idle := fun hidle => by simp [hidle, Point.drivesSupply] at hdrives
    obtain ⟨i, -, hok⟩ := hinv.engineOk hrun
    have hsupply := hok.supply
    have hen := hok.enable
    have hline := hok.line
    obtain ⟨hp, rfl⟩ | ⟨hp, rfl⟩ | ⟨hp, rfl⟩ | ⟨hp, rfl⟩ := Point.drivesSupply_cases hdrives <;>
      rw [hp] at hsupply hen hline
    · exact .inr (.inl ⟨hsupply, by rw [hbus]⟩)
    · obtain ⟨hbit, -, -⟩ := hok.bit (by rw [hp]; rfl)
      have honehot : isOnehot s.bus.progSel = true := by rw [hline]; exact isOnehot_onehot8 _ hbit
      exact .inr (.inr (.inl ⟨hsupply, hen, honehot, hbus⟩))
    · exact .inr (.inr (.inr (.inl ⟨hsupply, hen, by rw [hbus]⟩)))
    · exact .inr (.inr (.inr (.inr ⟨hsupply, hen, hline, by rw [hbus]⟩)))

/-! ### The programming level belongs to `w` -/

theorem supplyAt_eq_program_iff {p : Point} :
    p.supplyAt = .program ↔ p ∈ [.burnEnable, .burnDisable, .burnDrop] := by
  cases p <;> simp [Point.supplyAt]

theorem supplyAt_ne_program {i : Instr} (hi : programs i = false) : ∀ p ∈ pointsOf i, p.supplyAt ≠ .program := by
  cases i with
  | program chip addr value => cases hi
  | _ => simp [pointsOf, Point.supplyAt]

theorem programs_iff {i : Instr} : programs i = true ↔ ∃ chip addr value, i = .program chip addr value := by
  cases i <;> simp [programs]

/-- At the programming level one data line is driven, of a bit that the pulse resolves. -/
theorem EngineOk.line_of_program {i : Instr} {s : State} (hok : EngineOk i s)
    (hp : s.eng.point ∈ [.burnEnable, .burnDisable, .burnDrop]) :
    s.bus.progSel = onehot8 s.eng.bit.toNat ∧ s.eng.bit.toNat < 8 := by
  have hpulse : s.eng.point.stageAt ≠ .quiet ∧ s.eng.point.resolvesBit = true := by
    revert hp
    cases s.eng.point <;> simp [Point.stageAt, Point.resolvesBit]
  obtain ⟨hstage, hresolves⟩ := hpulse
  obtain ⟨hbit, -, -⟩ := hok.bit hresolves
  exact ⟨hok.line.trans (if_neg hstage), hbit⟩

/-- R171: the programming level stands only inside a pulse of a live `w`. -/
theorem Inv.of_supply_program {s : State} (hinv : Inv s) (hsupply : s.bus.supply = .program) :
    ∃ chip addr value, s.command.live = some (.program chip addr value) ∧
      s.eng.point ∈ [.burnEnable, .burnDisable, .burnDrop] ∧ s.bus.progSel = onehot8 s.eng.bit.toNat ∧
      s.eng.bit.toNat < 8 := by
  have hrun : s.eng.point ≠ .idle := fun hidle => by
    obtain ⟨hoff, -⟩ := hinv.idle hidle
    simp [hsupply] at hoff
  obtain ⟨i, hlive, hok⟩ := hinv.engineOk hrun
  have hlevel : s.eng.point.supplyAt = .program := hok.supply.symm.trans hsupply
  have hprograms : programs i = true := Bool.not_eq_false _ |>.mp fun hi => supplyAt_ne_program hi _ hok.point hlevel
  obtain ⟨chip, addr, value, rfl⟩ := programs_iff.mp hprograms
  have hpoint := supplyAt_eq_program_iff.mp hlevel
  exact ⟨chip, addr, value, hlive, hpoint, hok.line_of_program hpoint⟩

/-- Settles O43: the invariant ties the programming level to a pulse of `w`; a step moves the supply at four points of the
engine, whose levels the invariant gives. -/
theorem supplyOrder : Obligations.SupplyOrder := by
  refine ⟨fun s hinv => hinv.of_supply_program, fun s t hinv hstep => ⟨fun hrst => ?_, fun hrst => ?_⟩⟩
  · rw [step_of_rst hrst] at hstep
    cases hstep
    rfl
  · obtain hsame | ⟨hs, ht⟩ | ⟨hs, hen, honehot, hbus⟩ | ⟨hs, hen, ht⟩ | ⟨hs, hen, hline, ht⟩ :=
      hinv.supply_step_cases hrst hstep
    · rw [hsame]
      exact ⟨fun h hne => absurd h hne, fun h hne => absurd h hne, fun h hne => absurd h hne⟩
    · simp [hs, ht]
    · simp [hs, hen, honehot, hbus]
    · simp [hs, hen, ht]
    · simp [hs, hen, hline, ht]

end Sys2Proof.Machine

/-! SUPPORT. The decoder (30_encoding.md R70 to R77, R88 to R90): the tokens of a line, the fields of a request, and what the
decoder makes of a line whose fields are good up to some point. -/

namespace Sys2Proof

/-! ### The tokens of a line -/

theorem tokensFrom_delim_nil {d : Byte} (hd : isDelim d = true) (line : List Byte) :
    tokensFrom [] (d :: line) = tokensFrom [] line := by
  simp [tokensFrom, hd]

theorem tokensFrom_delim {d : Byte} (hd : isDelim d = true) {cur : Token} (hcur : cur ≠ []) (line : List Byte) :
    tokensFrom cur (d :: line) = cur :: tokensFrom [] line := by
  simp [tokensFrom, hd, hcur]

theorem tokensFrom_cons {c : Byte} (hc : isDelim c = false) (cur : Token) (line : List Byte) :
    tokensFrom cur (c :: line) = tokensFrom (cur ++ [c]) line := by
  simp [tokensFrom, hc]

theorem tokensFrom_nil {cur : Token} (hcur : cur ≠ []) : tokensFrom cur [] = [cur] := by
  simp [tokensFrom, hcur]

/-- Bytes that are no delimiters go on with the token begun. -/
theorem tokensFrom_append {t : Token} (ht : ∀ c ∈ t, isDelim c = false) (cur : Token) (line : List Byte) :
    tokensFrom cur (t ++ line) = tokensFrom (cur ++ t) line := by
  induction t generalizing cur with
  | nil => simp
  | cons c t ih =>
    rw [List.cons_append, tokensFrom_cons (ht c (by simp)), ih fun d hd => ht d (by simp [hd])]
    simp

/-- A token with a space behind it. -/
theorem tokens_space {t : Token} (ht : ∀ c ∈ t, isDelim c = false) (hne : t ≠ []) (line : List Byte) :
    tokens (t ++ asciiSP :: line) = t :: tokens line := by
  rw [tokens, tokensFrom_append ht, List.nil_append, tokensFrom_delim (by decide) hne]
  rfl

/-- A token at the end of the line. -/
theorem tokens_single {t : Token} (ht : ∀ c ∈ t, isDelim c = false) (hne : t ≠ []) : tokens t = [t] := by
  have h := tokensFrom_append ht [] []
  rwa [List.append_nil, List.nil_append, tokensFrom_nil hne] at h

/-- A delimiter at the end of a line ends at most a token that the line's end would end too. -/
theorem tokensFrom_concat_delim {d : Byte} (hd : isDelim d = true) (line : List Byte) (cur : Token) :
    tokensFrom cur (line ++ [d]) = tokensFrom cur line := by
  induction line generalizing cur with
  | nil => cases cur <;> simp [tokensFrom, hd]
  | cons c line ih => simp only [List.cons_append, tokensFrom, ih]

/-! ### The fields of a request -/

@[simp] theorem takeField_nil {α : Type} (read : Token → Except Cause α) : takeField read [] = .error .noRule := rfl

theorem takeField_of_ok {α : Type} {read : Token → Except Cause α} {t : Token} {v : α} (h : read t = .ok v)
    (ts : List Token) : takeField read (t :: ts) = .ok (v, ts) := by
  simp [takeField, h, Except.map]

theorem takeField_of_error {α : Type} {read : Token → Except Cause α} {t : Token} {c : Cause} (h : read t = .error c)
    (ts : List Token) : takeField read (t :: ts) = .error c := by
  simp [takeField, h, Except.map]

@[simp] theorem endOfLine_nil (i : Instr) : endOfLine i [] = .ok i := rfl
@[simp] theorem endOfLine_cons (i : Instr) (t : Token) (ts : List Token) : endOfLine i (t :: ts) = .error .noRule := rfl

@[simp] theorem chipField_chipToken (chip : Profile) : chipField [chipToken chip] = .ok chip := by
  cases chip <;> rfl

theorem chipField_of_bad {t : Token} (hzero : t ≠ [0x30#8]) (hone : t ≠ [0x31#8]) : chipField t = .error .badChip := by
  simp [chipField, hzero, hone]

theorem hexField_of_lt {bound v : Nat} {t : Token} (ht : hexValue t = some v) (hv : v < bound) :
    hexField bound t = .ok v := by
  simp [hexField, ht, hv]

theorem hexField_of_nonhex (bound : Nat) {t : Token} (ht : hexValue t = none) : hexField bound t = .error .badHex := by
  simp [hexField, ht]

theorem hexField_of_le {bound v : Nat} {t : Token} (ht : hexValue t = some v) (hv : bound ≤ v) :
    hexField bound t = .error .range := by
  simp [hexField, ht, hv]

/-- A hexadecimal field takes exactly the tokens of digits with a value below its bound (R76). -/
theorem hexField_eq_ok_iff {bound v : Nat} {t : Token} :
    hexField bound t = .ok v ↔ hexValue t = some v ∧ v < bound := by
  unfold hexField
  cases hexValue t with
  | none => simp
  | some w =>
    simp only [Option.some_inj]
    split
    · next hw => simp only [Except.ok.injEq]; exact ⟨fun h => ⟨h, h ▸ hw⟩, fun h => h.1⟩
    · next hw => exact iff_of_false (by simp) fun h => hw (h.1 ▸ h.2)

theorem addrField_of_lt {chip : Profile} {v : Nat} {t : Token} (ht : hexValue t = some v) (hv : v < cellCount chip) :
    addrField chip t = .ok (BitVec.ofNat 9 v) := by
  simp [addrField, hexField_of_lt ht hv, Except.map]

theorem valueField_of_lt {v : Nat} {t : Token} (ht : hexValue t = some v) (hv : v < 0x100) :
    valueField t = .ok (BitVec.ofNat 8 v) := by
  simp [valueField, hexField_of_lt ht hv, Except.map]

theorem addrField_of_error {chip : Profile} {c : Cause} {t : Token} (h : hexField (cellCount chip) t = .error c) :
    addrField chip t = .error c := by
  simp [addrField, h, Except.map]

theorem valueField_of_error {c : Cause} {t : Token} (h : hexField 0x100 t = .error c) : valueField t = .error c := by
  simp [valueField, h, Except.map]

/-- An address the grammar accepts names a cell of the profile (R76). -/
theorem addrInRange_of_addrField {chip : Profile} {t : Token} {addr : CellAddr} (h : addrField chip t = .ok addr) :
    addrInRange chip addr = true := by
  unfold addrField at h
  cases hv : hexField (cellCount chip) t with
  | error c => rw [hv] at h; cases h
  | ok v =>
    rw [hv] at h
    cases h
    obtain ⟨-, hlt⟩ := hexField_eq_ok_iff.mp hv
    have hcount := cellCount_le chip
    refine decide_eq_true ?_
    rw [BitVec.toNat_ofNat]
    omega

/-! ### The numbers that are written -/

theorem hexValueFrom_digit (v : Nat) (d : BitVec 4) (t : Token) :
    hexValueFrom v (digit d :: t) = hexValueFrom (v * 16 + d.toNat) t := by
  obtain ⟨hdigit, -⟩ := digit_reads d
  rw [hexValueFrom, hdigit]

theorem isDelim_digit (d : BitVec 4) : isDelim (digit d) = false := by
  obtain ⟨-, hdelim, -⟩ := digit_reads d
  exact hdelim

/-- Two written digits read back as the byte (R75, R81). -/
theorem hexValue_hex2 (v : Byte) : hexValue (hex2 v) = some v.toNat := by
  have := v.isLt
  rw [hexValue, hex2, hexValueFrom_digit, hexValueFrom_digit, hexValueFrom]
  simp only [BitVec.extractLsb'_toNat, Nat.shiftRight_eq_div_pow]
  exact congrArg some (by omega)

/-- Three written digits read back as the number (R75, R81). -/
theorem hexValue_hex3 (v : BitVec 12) : hexValue (hex3 v) = some v.toNat := by
  have := v.isLt
  rw [hexValue, hex3, hexValueFrom_digit, hexValueFrom_digit, hexValueFrom_digit, hexValueFrom]
  simp only [BitVec.extractLsb'_toNat, Nat.shiftRight_eq_div_pow]
  exact congrArg some (by omega)

theorem isDelim_of_mem_hex2 (v : Byte) : ∀ c ∈ hex2 v, isDelim c = false := by
  simp [hex2, isDelim_digit]

theorem isDelim_of_mem_hex3 (v : BitVec 12) : ∀ c ∈ hex3 v, isDelim c = false := by
  simp [hex3, isDelim_digit]

theorem isDelim_chipToken (chip : Profile) : isDelim (chipToken chip) = false := by cases chip <;> decide

theorem valueField_hex2 (v : Byte) : valueField (hex2 v) = .ok v := by
  rw [valueField_of_lt (hexValue_hex2 v) v.isLt, BitVec.ofNat_toNat, BitVec.setWidth_eq]

theorem addrField_hex3 {chip : Profile} {addr : CellAddr} (h : addrInRange chip addr = true) :
    addrField chip (hex3 (addr.zeroExtend 12)) = .ok addr := by
  have hvalue : hexValue (hex3 (addr.zeroExtend 12)) = some addr.toNat := by
    have := addr.isLt
    rw [hexValue_hex3, BitVec.zeroExtend_eq_setWidth, BitVec.toNat_setWidth, Nat.mod_eq_of_lt (by omega)]
  rw [addrField_of_lt hvalue (of_decide_eq_true h), BitVec.ofNat_toNat, BitVec.setWidth_eq]

/-! ### The requests of each form -/

section
variable {chip : Profile} {addr : CellAddr} {value : Byte} {cause : Cause} {tc ta tv : Token} {fields : List Token}

theorem parseScan_of_chip (make : Profile → Instr) (hchip : chipField tc = .ok chip) :
    parseScan make (tc :: fields) = endOfLine (make chip) fields := by
  simp [parseScan, takeField_of_ok hchip]

theorem parseRead_of_addr_error (hchip : chipField tc = .ok chip) (h : takeField (addrField chip) fields = .error cause) :
    parseRead (tc :: fields) = .error cause := by
  simp [parseRead, takeField_of_ok hchip, h]

theorem parseRead_of_addr (hchip : chipField tc = .ok chip) (haddr : addrField chip ta = .ok addr) :
    parseRead (tc :: ta :: fields) = endOfLine (.readByte chip addr) fields := by
  simp [parseRead, takeField_of_ok hchip, takeField_of_ok haddr]

theorem parseBurn_of_addr_error (make : Profile → CellAddr → Byte → Instr) (hchip : chipField tc = .ok chip)
    (h : takeField (addrField chip) fields = .error cause) : parseBurn make (tc :: fields) = .error cause := by
  simp [parseBurn, takeField_of_ok hchip, h]

theorem parseBurn_of_value_error (make : Profile → CellAddr → Byte → Instr) (hchip : chipField tc = .ok chip)
    (haddr : addrField chip ta = .ok addr) (h : takeField valueField fields = .error cause) :
    parseBurn make (tc :: ta :: fields) = .error cause := by
  simp [parseBurn, takeField_of_ok hchip, takeField_of_ok haddr, h]

theorem parseBurn_of_value (make : Profile → CellAddr → Byte → Instr) (hchip : chipField tc = .ok chip)
    (haddr : addrField chip ta = .ok addr) (hvalue : valueField tv = .ok value) :
    parseBurn make (tc :: ta :: tv :: fields) = endOfLine (make chip addr value) fields := by
  simp [parseBurn, takeField_of_ok hchip, takeField_of_ok haddr, takeField_of_ok hvalue]

end

/-- The fields that the encoder writes are read back (R72, R93). -/
theorem parseTokens_encode {i : Instr} (h : i.wellFormed = true) :
    ∃ fields, tokens (i.commandByte :: encodeFields i) = [i.commandByte] :: fields ∧
      parseFields i.commandByte fields = .ok i := by
  have hchip : ∀ chip, ∀ c ∈ [chipToken chip], isDelim c = false := by simp [isDelim_chipToken]
  have haddr : ∀ addr : CellAddr, hex3 (addr.zeroExtend 12) ≠ [] := by simp [hex3]
  have hvalue : ∀ value, hex2 value ≠ [] := by simp [hex2]
  have hscan (cmd : Byte) (hcmd : ∀ c ∈ [cmd], isDelim c = false) (chip : Profile) :
      tokens (cmd :: [asciiSP, chipToken chip]) = [[cmd], [chipToken chip]] := by
    rw [← tokens_single (hchip chip) (by simp), ← tokens_space hcmd (by simp)]
    rfl
  have hread (cmd : Byte) (hcmd : ∀ c ∈ [cmd], isDelim c = false) (chip : Profile) (line : List Byte) :
      tokens (cmd :: ([asciiSP, chipToken chip, asciiSP] ++ line)) = [cmd] :: [chipToken chip] :: tokens line := by
    rw [← tokens_space (hchip chip) (by simp), ← tokens_space hcmd (by simp)]
    rfl
  have hburn (cmd : Byte) (hcmd : ∀ c ∈ [cmd], isDelim c = false) (chip : Profile) (addr : CellAddr) (value : Byte) :
      tokens (cmd :: ([asciiSP, chipToken chip, asciiSP] ++ hex3 (addr.zeroExtend 12) ++ [asciiSP] ++ hex2 value)) =
        [[cmd], [chipToken chip], hex3 (addr.zeroExtend 12), hex2 value] := by
    rw [List.append_assoc, List.append_assoc, hread cmd hcmd, List.singleton_append,
      tokens_space (isDelim_of_mem_hex3 _) (haddr addr), tokens_single (isDelim_of_mem_hex2 _) (hvalue value)]
  cases i with
  | version => exact ⟨[], by decide, rfl⟩
  | readAll chip => exact ⟨_, hscan cmdR (by decide) chip, parseScan_of_chip _ (chipField_chipToken chip)⟩
  | blankCheck chip => exact ⟨_, hscan cmdK (by decide) chip, parseScan_of_chip _ (chipField_chipToken chip)⟩
  | readByte chip addr =>
    refine ⟨[[chipToken chip], hex3 (addr.zeroExtend 12)], ?_,
      parseRead_of_addr (chipField_chipToken chip) (addrField_hex3 h)⟩
    exact (hread cmdr (by decide) chip _).trans (by rw [tokens_single (isDelim_of_mem_hex3 _) (haddr addr)]; rfl)
  | program chip addr value =>
    exact ⟨_, hburn cmdw (by decide) chip addr value,
      parseBurn_of_value .program (chipField_chipToken chip) (addrField_hex3 h) (valueField_hex2 value)⟩
  | simulate chip addr value =>
    exact ⟨_, hburn cmds (by decide) chip addr value,
      parseBurn_of_value .simulate (chipField_chipToken chip) (addrField_hex3 h) (valueField_hex2 value)⟩

theorem asciiLF_not_mem_encode (i : Instr) : asciiLF ∉ i.commandByte :: encodeFields i := by
  cases i with
  | version => exact Laws.F.version
  | readAll chip => exact Laws.F.readAll chip
  | blankCheck chip => exact Laws.F.blankCheck chip
  | readByte chip addr => exact Laws.F.readByte chip addr
  | program chip addr value => exact Laws.F.program chip addr value
  | simulate chip addr value => exact Laws.F.simulate chip addr value

/-- Settles O8: the encoded line has the tokens that the encoder wrote, and each field reads back as its operand. -/
theorem decodeEncode : Obligations.DecodeEncode := by
  intro i rest hwf
  obtain ⟨fields, htokens, hparse⟩ := parseTokens_encode hwf
  calc decode (encode i ++ rest)
      = decode (i.commandByte :: encodeFields i ++ [asciiLF] ++ rest) := by simp [encode]
    _ = decodeTokens (tokens (i.commandByte :: encodeFields i)) rest := decode_line _ _ (asciiLF_not_mem_encode i)
    _ = .request i rest := by simp [htokens, decodeTokens, parseTokens, hparse]

/-- Settles O7: the decoder evaluated on each of the six lines. -/
theorem wordsDecode : Obligations.WordsDecode := by
  unfold Obligations.WordsDecode
  decide

/-! ### What the decoder accepts -/

theorem takeField_eq_ok {α : Type} {read : Token → Except Cause α} {fields rest : List Token} {v : α}
    (h : takeField read fields = .ok (v, rest)) : ∃ t, fields = t :: rest ∧ read t = .ok v := by
  cases fields with
  | nil => cases h
  | cons t ts =>
    simp only [takeField] at h
    cases hread : read t with
    | error c => rw [hread] at h; cases h
    | ok w => rw [hread] at h; cases h; exact ⟨t, rfl, hread⟩

theorem endOfLine_eq_ok {i j : Instr} {ts : List Token} (h : endOfLine i ts = .ok j) : ts = [] ∧ i = j := by
  cases ts with
  | nil => cases h; exact ⟨rfl, rfl⟩
  | cons t ts => cases h

theorem parseScan_eq_ok {make : Profile → Instr} {fields : List Token} {i : Instr} (h : parseScan make fields = .ok i) :
    ∃ tc chip, fields = [tc] ∧ chipField tc = .ok chip ∧ i = make chip := by
  unfold parseScan at h
  split at h
  · cases h
  · next chip rest hchip =>
    obtain ⟨tc, rfl, htc⟩ := takeField_eq_ok hchip
    obtain ⟨rfl, rfl⟩ := endOfLine_eq_ok h
    exact ⟨tc, chip, rfl, htc, rfl⟩

theorem parseRead_eq_ok {fields : List Token} {i : Instr} (h : parseRead fields = .ok i) :
    ∃ tc ta chip addr, fields = [tc, ta] ∧ chipField tc = .ok chip ∧ addrField chip ta = .ok addr ∧
      i = .readByte chip addr := by
  unfold parseRead at h
  split at h
  · cases h
  · next chip rest hchip =>
    obtain ⟨tc, rfl, htc⟩ := takeField_eq_ok hchip
    split at h
    · cases h
    · next addr rest haddr =>
      obtain ⟨ta, rfl, hta⟩ := takeField_eq_ok haddr
      obtain ⟨rfl, rfl⟩ := endOfLine_eq_ok h
      exact ⟨tc, ta, chip, addr, rfl, htc, hta, rfl⟩

theorem parseBurn_eq_ok {make : Profile → CellAddr → Byte → Instr} {fields : List Token} {i : Instr}
    (h : parseBurn make fields = .ok i) :
    ∃ tc ta tv chip addr value, fields = [tc, ta, tv] ∧ chipField tc = .ok chip ∧ addrField chip ta = .ok addr ∧
      valueField tv = .ok value ∧ i = make chip addr value := by
  unfold parseBurn at h
  split at h
  · cases h
  · next chip rest hchip =>
    obtain ⟨tc, rfl, htc⟩ := takeField_eq_ok hchip
    split at h
    · cases h
    · next addr rest haddr =>
      obtain ⟨ta, rfl, hta⟩ := takeField_eq_ok haddr
      split at h
      · cases h
      · next value rest hvalue =>
        obtain ⟨tv, rfl, htv⟩ := takeField_eq_ok hvalue
        obtain ⟨rfl, rfl⟩ := endOfLine_eq_ok h
        exact ⟨tc, ta, tv, chip, addr, value, rfl, htc, hta, htv, rfl⟩

theorem parseTokens_wellFormed {cmd : Token} {fields : List Token} {i : Instr} (h : parseTokens cmd fields = .ok i) :
    i.wellFormed = true := by
  unfold parseTokens at h
  split at h
  · unfold parseFields at h
    split_ifs at h
    · obtain ⟨-, rfl⟩ := endOfLine_eq_ok h
      rfl
    · obtain ⟨tc, chip, -, -, rfl⟩ := parseScan_eq_ok h
      rfl
    · obtain ⟨tc, chip, -, -, rfl⟩ := parseScan_eq_ok h
      rfl
    · obtain ⟨tc, ta, chip, addr, -, -, haddr, rfl⟩ := parseRead_eq_ok h
      exact addrInRange_of_addrField haddr
    · obtain ⟨tc, ta, tv, chip, addr, value, -, -, haddr, -, rfl⟩ := parseBurn_eq_ok h
      exact addrInRange_of_addrField haddr
    · obtain ⟨tc, ta, tv, chip, addr, value, -, -, haddr, -, rfl⟩ := parseBurn_eq_ok h
      exact addrInRange_of_addrField haddr
  · cases h

/-- A line that the decoder does not find unterminated is one up to the first line feed. -/
theorem decode_cases (bytes : List Byte) :
    (asciiLF ∉ bytes ∧ decode bytes = .unterminated) ∨
    ∃ line rest, asciiLF ∉ line ∧ bytes = line ++ [asciiLF] ++ rest ∧ decode bytes = decodeTokens (tokens line) rest := by
  by_cases hlf : asciiLF ∈ bytes
  · obtain ⟨line, rest, rfl, hline⟩ := List.eq_append_cons_of_mem hlf
    have heq : line ++ asciiLF :: rest = line ++ [asciiLF] ++ rest := by simp
    exact .inr ⟨line, rest, hline, heq, by rw [heq, decode_line line rest hline]⟩
  · refine .inl ⟨hlf, ?_⟩
    unfold decode
    cases hsplit : splitLine bytes with
    | none => rfl
    | some p =>
      obtain ⟨line, rest⟩ := p
      obtain ⟨-, hbytes⟩ := splitLine_some hsplit
      exact absurd (by simp [hbytes]) hlf

theorem decodeTokens_rest {toks : List Token} {rest rest' : List Byte} {i : Instr}
    (h : decodeTokens toks rest = .request i rest') :
    rest' = rest ∧ ∃ cmd fields, toks = cmd :: fields ∧ parseTokens cmd fields = .ok i := by
  unfold decodeTokens at h
  split at h
  · cases h
  · next cmd fields =>
    split at h
    · next j hj => cases h; exact ⟨rfl, cmd, fields, rfl, hj⟩
    · cases h

theorem decodeTokens_ne_unterminated (toks : List Token) (rest : List Byte) : decodeTokens toks rest ≠ .unterminated := by
  unfold decodeTokens
  split
  · exact nofun
  · split <;> exact nofun

/-- Settles O9: an accepted address field was below its bound, and the line ends at the first line feed. -/
theorem decodedIsWellFormed : Obligations.DecodedIsWellFormed := by
  intro bytes rest i hdecode
  obtain ⟨-, hnone⟩ | ⟨line, rest', hline, hbytes, hdec⟩ := decode_cases bytes
  · cases hnone.symm.trans hdecode
  · obtain ⟨rfl, cmd, fields, -, hparse⟩ := decodeTokens_rest (hdec.symm.trans hdecode)
    exact ⟨parseTokens_wellFormed hparse, line, hbytes, hline⟩

/-- Settles O10: the decoder looks for the first line feed, and a CR before it is one more delimiter at the line's end. -/
theorem carriageReturnIsDelimiter : Obligations.CarriageReturnIsDelimiter := by
  refine ⟨fun bytes => ?_, fun line rest hline => ?_⟩
  · obtain ⟨hlf, hnone⟩ | ⟨line, rest, -, hbytes, hdec⟩ := decode_cases bytes
    · exact iff_of_true hnone hlf
    · exact iff_of_false (hdec ▸ decodeTokens_ne_unterminated _ _) (by simp [hbytes])
  · have hcr : asciiLF ∉ line ++ [asciiCR] := by simpa using hline
    calc decode (line ++ [asciiCR, asciiLF] ++ rest)
        = decode (line ++ [asciiCR] ++ [asciiLF] ++ rest) := by simp
      _ = decodeTokens (tokens (line ++ [asciiCR])) rest := decode_line _ _ hcr
      _ = decodeTokens (tokens line) rest := by rw [tokens, tokensFrom_concat_delim (by decide), tokens]
      _ = decode (line ++ [asciiLF] ++ rest) := (decode_line line rest hline).symm

/-! ### The first field that is missing or bad -/

section
variable {c : Byte} {chip : Profile} {addr : CellAddr} {value : Byte} {cause : Cause} {tc ta tv : Token}
  {fields : List Token}

theorem parseFields_of_scan (hc : c ∈ [0x52#8, 0x4B#8]) :
    ∃ make, ∀ fields, parseFields c fields = parseScan make fields := by
  simp only [List.mem_cons, List.not_mem_nil, or_false] at hc
  obtain rfl | rfl := hc
  · exact ⟨.readAll, fun _ => rfl⟩
  · exact ⟨.blankCheck, fun _ => rfl⟩

theorem parseFields_of_burn (hc : c ∈ [0x77#8, 0x73#8]) :
    ∃ make, ∀ fields, parseFields c fields = parseBurn make fields := by
  simp only [List.mem_cons, List.not_mem_nil, or_false] at hc
  obtain rfl | rfl := hc
  · exact ⟨.program, fun _ => rfl⟩
  · exact ⟨.simulate, fun _ => rfl⟩

theorem parseFields_read (fields : List Token) : parseFields 0x72#8 fields = parseRead fields := rfl

/-- Every command but `V` takes its chip field first. -/
theorem parseFields_of_chip_error (hc : c ∈ [0x52#8, 0x4B#8, 0x72#8, 0x77#8, 0x73#8])
    (h : takeField chipField fields = .error cause) : parseFields c fields = .error cause := by
  have hc : c ∈ [0x52#8, 0x4B#8] ∨ c = 0x72#8 ∨ c ∈ [0x77#8, 0x73#8] := by
    simp only [List.mem_cons, List.not_mem_nil, or_false] at hc ⊢
    tauto
  obtain hscan | rfl | hburn := hc
  · obtain ⟨make, hmake⟩ := parseFields_of_scan hscan
    rw [hmake, parseScan, h]
  · rw [parseFields_read, parseRead, h]
  · obtain ⟨make, hmake⟩ := parseFields_of_burn hburn
    rw [hmake, parseBurn, h]

/-- `r`, `w` and `s` take their address field after a good chip. -/
theorem parseFields_of_addr_error (hc : c ∈ [0x72#8, 0x77#8, 0x73#8]) (hchip : chipField tc = .ok chip)
    (h : takeField (addrField chip) fields = .error cause) : parseFields c (tc :: fields) = .error cause := by
  obtain rfl | hburn := List.mem_cons.mp hc
  · exact (parseFields_read _).trans (parseRead_of_addr_error hchip h)
  · obtain ⟨make, hmake⟩ := parseFields_of_burn hburn
    exact (hmake _).trans (parseBurn_of_addr_error make hchip h)

/-- `w` and `s` take their value field after a good chip and a good address. -/
theorem parseFields_of_value_error (hc : c ∈ [0x77#8, 0x73#8]) (hchip : chipField tc = .ok chip)
    (haddr : addrField chip ta = .ok addr) (h : takeField valueField fields = .error cause) :
    parseFields c (tc :: ta :: fields) = .error cause := by
  obtain ⟨make, hmake⟩ := parseFields_of_burn hc
  exact (hmake _).trans (parseBurn_of_value_error make hchip haddr h)

/-- A byte that is none of the six commands is `NO_RULE` (R89). -/
theorem parseFields_of_unknown (hc : c ∉ [0x56#8, 0x52#8, 0x4B#8, 0x72#8, 0x77#8, 0x73#8]) :
    parseFields c fields = .error .noRule := by
  simp only [List.mem_cons, List.not_mem_nil, or_false, not_or] at hc
  simp [parseFields, hc]

theorem decode_of_parse_error {line rest : List Byte} {cmd : Token} (hline : asciiLF ∉ line)
    (htokens : tokens line = cmd :: fields) (h : parseTokens cmd fields = .error cause) :
    decode (line ++ [asciiLF] ++ rest) = .malformed cause rest := by
  rw [decode_line line rest hline, htokens, decodeTokens, h]

end

/-- Settles O11: each shape leaves a field missing, a token over, or a command byte that selects no command. -/
theorem illegalLines : Obligations.IllegalLines := by
  intro line rest chip hline noRule
  have hchip := chipField_chipToken chip
  refine ⟨fun c fields ht hc => decode_of_parse_error hline ht (parseFields_of_unknown hc),
    fun t fields ht => decode_of_parse_error hline ht rfl,
    fun c hc ht => decode_of_parse_error hline ht (parseFields_of_chip_error hc rfl),
    fun c hc ht => decode_of_parse_error hline ht (parseFields_of_addr_error hc hchip rfl),
    fun c t fields hc ht => decode_of_parse_error hline ht ?_, fun addr a ha hlt => ?_⟩
  · obtain ⟨make, hmake⟩ := parseFields_of_scan hc
    exact (hmake _).trans (parseScan_of_chip make hchip)
  · have haddr := addrField_of_lt ha hlt
    refine ⟨fun c hc ht => decode_of_parse_error hline ht (parseFields_of_value_error hc hchip haddr rfl),
      fun t fields ht => decode_of_parse_error hline ht (parseRead_of_addr hchip haddr),
      fun c value v t fields hc hv hlt ht => decode_of_parse_error hline ht ?_⟩
    obtain ⟨make, hmake⟩ := parseFields_of_burn hc
    exact (hmake _).trans (parseBurn_of_value make hchip haddr (valueField_of_lt hv hlt))

/-- Settles O12: the fields before the bad one are read, and the bad one gives its cause. -/
theorem badFields : Obligations.BadFields := by
  intro line rest chip hline rejects bad
  have hchip := chipField_chipToken chip
  refine ⟨fun t fields ht hlen => decode_of_parse_error hline ht ?_,
    fun c t fields hc ht hzero hone => decode_of_parse_error hline ht
      (parseFields_of_chip_error hc (takeField_of_error (chipField_of_bad hzero hone) _)),
    fun c t fields hc ht => ?_, fun c addr a t fields hc ha hlt ht => ?_⟩
  · unfold parseTokens
    split
    · exact absurd rfl hlen
    · rfl
  · have hreject {cause : Cause} (h : hexField (cellCount chip) t = .error cause) : rejects cause :=
      decode_of_parse_error hline ht
        (parseFields_of_addr_error hc hchip (takeField_of_error (addrField_of_error h) _))
    exact ⟨fun hnone => hreject (hexField_of_nonhex _ hnone), fun v hv hle => hreject (hexField_of_le hv hle)⟩
  · have hreject {cause : Cause} (h : hexField 0x100 t = .error cause) : rejects cause :=
      decode_of_parse_error hline ht
        (parseFields_of_value_error hc hchip (addrField_of_lt ha hlt) (takeField_of_error (valueField_of_error h) _))
    exact ⟨fun hnone => hreject (hexField_of_nonhex _ hnone), fun v hv hle => hreject (hexField_of_le hv hle)⟩

end Sys2Proof

/-! SUPPORT. The token handlers over the streaming lexer (40_interpreter.md R97, R98, R107 to R110), and the events of the rule
table state by state (30_encoding.md R84, 40_interpreter.md R103 to R106). -/

namespace Sys2Proof

/-- A token has no value exactly when one of its bytes is no digit (30_encoding.md R75). -/
theorem hexValueFrom_eq_none_iff {t : Token} {v : Nat} :
    hexValueFrom v t = none ↔ t.any Machine.isNonhex = true := by
  induction t generalizing v with
  | nil => simp [hexValueFrom]
  | cons c cs ih =>
    rw [hexValueFrom]
    cases hc : hexDigit? c with
    | none => simp [Machine.isNonhex, hc]
    | some d => simp [Machine.isNonhex, hc, ih]

end Sys2Proof

namespace Sys2Proof.Machine

/-! ### What the lexer knows of a token besides its value -/

@[simp] theorem addDigit_tok0 (d : Nat) (l : Lexer) : (l.addDigit d).tok0 = l.tok0 := by
  simp only [Lexer.addDigit]; split <;> rfl

@[simp] theorem addDigit_tokLen (d : Nat) (l : Lexer) : (l.addDigit d).tokLen = l.tokLen := by
  simp only [Lexer.addDigit]; split <;> rfl

@[simp] theorem addDigit_tokNonhex (d : Nat) (l : Lexer) : (l.addDigit d).tokNonhex = l.tokNonhex := by
  simp only [Lexer.addDigit]; split <;> rfl

@[simp] theorem continueToken_tok0 (c : Byte) (l : Lexer) : (l.continueToken c).tok0 = l.tok0 := by
  cases hc : hexDigit? c <;> simp [Lexer.continueToken, hc]

@[simp] theorem continueToken_tokNonhex (c : Byte) (l : Lexer) :
    (l.continueToken c).tokNonhex = (l.tokNonhex || isNonhex c) := by
  cases hc : hexDigit? c <;> simp [Lexer.continueToken, hc]

theorem continueToken_tokLen (c : Byte) (l : Lexer) :
    (l.continueToken c).tokLen = if l.tokLen = 3#2 then 3#2 else l.tokLen + 1#2 := by
  cases hc : hexDigit? c <;> simp [Lexer.continueToken, hc]

/-- The count of a token's bytes saturates at 3 (R98). -/
theorem continueToken_tokLen_toNat (c : Byte) (l : Lexer) :
    (l.continueToken c).tokLen.toNat = min (l.tokLen.toNat + 1) 3 := by
  rw [continueToken_tokLen]
  generalize l.tokLen = n
  revert n
  decide

/-- What further bytes make of a token begun: its first byte stays, the bytes are counted up to 3, and a byte that is no
digit is noted. -/
theorem foldl_append_token {t : Token} {l : Lexer} (htok : l.inTok = true) :
    (t.foldl (fun l c => l.append c) l).tok0 = l.tok0 ∧
    (t.foldl (fun l c => l.append c) l).tokLen.toNat = min (l.tokLen.toNat + t.length) 3 ∧
    (t.foldl (fun l c => l.append c) l).tokNonhex = (l.tokNonhex || t.any isNonhex) := by
  induction t generalizing l with
  | nil =>
    have := l.tokLen.isLt
    refine ⟨rfl, ?_, by simp⟩
    simp only [List.foldl_nil, List.length_nil]
    omega
  | cons c cs ih =>
    obtain ⟨hfirst, hlen, hnonhex⟩ := ih (append_inTok c l)
    rw [append_of_inTok c htok] at hfirst hlen hnonhex
    rw [List.foldl_cons, append_of_inTok c htok, hfirst, hlen, hnonhex, continueToken_tokLen_toNat]
    refine ⟨continueToken_tok0 c l, ?_, by simp [Bool.or_assoc]⟩
    rw [List.length_cons]
    omega

/-- The lexer after a token: its first byte, its length up to 3, and whether all its bytes are digits. -/
theorem lexToken_cons (c : Byte) (cs : Token) :
    (lexToken (c :: cs)).tok0 = c ∧ ((lexToken (c :: cs)).tokLen = 1#2 ↔ cs = []) ∧
    (lexToken (c :: cs)).tokNonhex = (c :: cs).any isNonhex := by
  have hlexer : lexToken (c :: cs) = cs.foldl (fun l c => l.append c) (startToken c) := rfl
  obtain ⟨hfirst, hlen, hnonhex⟩ := foldl_append_token (t := cs) (l := startToken c) rfl
  rw [← hlexer] at hfirst hlen hnonhex
  refine ⟨hfirst, ?_, hnonhex⟩
  have hone : (startToken c).tokLen.toNat = 1 := rfl
  rw [← BitVec.toNat_inj, hlen, hone, ← List.length_eq_zero_iff, BitVec.toNat_ofNat]
  omega

/-! ### The handlers -/

theorem handleCmd_single (c : Byte) (r : Command) : handleCmd (lexToken [c]) r = .ok { r with cmd := c } := rfl

theorem handleCmd_of_long (c c' : Byte) (cs : Token) (r : Command) :
    handleCmd (lexToken (c :: c' :: cs)) r = .error .badCmd := by
  obtain ⟨-, hlen, -⟩ := lexToken_cons c (c' :: cs)
  exact if_neg fun h => List.cons_ne_nil _ _ (hlen.mp h)

/-- The lexer tells a one-byte token of a given byte from every other (R108). -/
theorem lexToken_is_single {t : Token} (ht : t ≠ []) (b : Byte) :
    ((lexToken t).tokLen = 1#2 ∧ (lexToken t).tok0 = b) ↔ t = [b] := by
  cases t with
  | nil => exact absurd rfl ht
  | cons c cs =>
    obtain ⟨hfirst, hlen, -⟩ := lexToken_cons c cs
    rw [hfirst, hlen, List.cons_eq_cons, and_comm]

theorem handleChip_lexToken {t : Token} (ht : t ≠ []) (r : Command) :
    handleChip (lexToken t) r = (chipField t).map (fun p => { r with chip := p }) := by
  simp only [handleChip, chipField, lexToken_is_single ht]
  split_ifs <;> rfl

theorem lexToken_tokNonhex {t : Token} (ht : t ≠ []) : (lexToken t).tokNonhex = true ↔ hexValue t = none := by
  cases t with
  | nil => exact absurd rfl ht
  | cons c cs =>
    obtain ⟨-, -, hnonhex⟩ := lexToken_cons c cs
    rw [hnonhex, hexValue, hexValueFrom_eq_none_iff]

/-- The range test of a handler on `ovf` and `acc` is the bound of the field (R99). -/
theorem lexToken_range {t : Token} (ht : t ≠ []) {v bound : Nat} (hv : hexValue t = some v) (hb : bound ≤ 0x3FF) :
    ((lexToken t).ovf = true ∨ bound ≤ (lexToken t).acc.toNat) ↔ ¬ v < bound := by
  rw [(lexToken_holdsValue ht hv).lt_iff hb, not_and_or, not_lt, Bool.not_eq_false]

theorem lexToken_acc {t : Token} (ht : t ≠ []) {v : Nat} (hv : hexValue t = some v) (hle : v ≤ 0x3FF) :
    (lexToken t).acc = BitVec.ofNat 10 v := by
  obtain ⟨hfits, -⟩ := lexToken_holdsValue ht hv
  obtain ⟨-, hacc⟩ := hfits hle
  rw [← hacc, BitVec.ofNat_toNat, BitVec.setWidth_eq]

theorem handleAddr_lexToken {t : Token} (ht : t ≠ []) (r : Command) :
    handleAddr (lexToken t) r = (addrField r.chip t).map (fun a => { r with addr := a }) := by
  have hcount := cellCount_le r.chip
  rw [handleAddr]
  cases hv : hexValue t with
  | none =>
    rw [if_pos ((lexToken_tokNonhex ht).mpr hv), addrField_of_error (hexField_of_nonhex _ hv)]
    rfl
  | some v =>
    rw [if_neg (by simp [lexToken_tokNonhex ht, hv]), if_congr (lexToken_range ht hv (by omega)) rfl rfl]
    by_cases hlt : v < cellCount r.chip
    · rw [if_neg (not_not.mpr hlt), addrField_of_lt hv hlt, lexToken_acc ht hv (by omega), scan_truncate]
      rfl
    · rw [if_pos hlt, addrField_of_error (hexField_of_le hv (not_lt.mp hlt))]
      rfl

theorem handleValue_lexToken {t : Token} (ht : t ≠ []) (r : Command) :
    handleValue (lexToken t) r = (valueField t).map (fun v => { r with value := v }) := by
  rw [handleValue]
  cases hv : hexValue t with
  | none =>
    rw [if_pos ((lexToken_tokNonhex ht).mpr hv), valueField_of_error (hexField_of_nonhex _ hv)]
    rfl
  | some v =>
    have hrange : ((lexToken t).ovf = true ∨ 0xFF < (lexToken t).acc.toNat) ↔ ¬ v < 0x100 :=
      lexToken_range (bound := 0x100) ht hv (by omega)
    rw [if_neg (by simp [lexToken_tokNonhex ht, hv]), if_congr hrange rfl rfl]
    by_cases hlt : v < 0x100
    · rw [if_neg (not_not.mpr hlt), valueField_of_lt hv hlt, lexToken_acc ht hv (by omega),
        BitVec.truncate_eq_setWidth, BitVec.setWidth_ofNat_of_le (by decide)]
      rfl
    · rw [if_pos hlt, valueField_of_error (hexField_of_le hv (not_lt.mp hlt))]
      rfl

/-- Settles O14: what the lexer knows of a token is its first byte, whether it is a single one, whether all its bytes are
digits, and its value; the handlers test no more, as the fields of the grammar do. -/
theorem handlersReadTokens : Obligations.HandlersReadTokens := by
  intro t r ht
  refine ⟨?_, handleChip_lexToken ht r, handleAddr_lexToken ht r, handleValue_lexToken ht r⟩
  match t with
  | [c] => exact handleCmd_single c r
  | c :: c' :: cs => exact handleCmd_of_long c c' cs r

/-! ### The rows of a `TOK` event -/

section
variable {cmd : Byte}

theorem lookupRow_ready (cmd : Byte) :
    lookupRow cmd .ready .tok = some ⟨none, some .ready, .tok, .hCmd, .waitChip⟩ := rfl

theorem lookupRow_waitChip_scan (h : cmd ∈ [cmdR, cmdK]) :
    lookupRow cmd .waitChip .tok = some ⟨some cmd, some .waitChip, .tok, .hChip, .executing⟩ := by
  simp only [List.mem_cons, List.not_mem_nil, or_false] at h
  obtain rfl | rfl := h <;> rfl

theorem lookupRow_waitChip_address (h : cmd ∈ [cmdr, cmdw, cmds]) :
    lookupRow cmd .waitChip .tok = some ⟨some cmd, some .waitChip, .tok, .hChip, .waitAddress⟩ := by
  simp only [List.mem_cons, List.not_mem_nil, or_false] at h
  obtain rfl | rfl | rfl := h <;> rfl

theorem lookupRow_waitAddress_read :
    lookupRow cmdr .waitAddress .tok = some ⟨some cmdr, some .waitAddress, .tok, .hAddr, .executing⟩ := rfl

theorem lookupRow_waitAddress_burn (h : cmd ∈ [cmdw, cmds]) :
    lookupRow cmd .waitAddress .tok = some ⟨some cmd, some .waitAddress, .tok, .hAddr, .waitValue⟩ := by
  simp only [List.mem_cons, List.not_mem_nil, or_false] at h
  obtain rfl | rfl := h <;> rfl

theorem lookupRow_waitValue (h : cmd ∈ [cmdw, cmds]) :
    lookupRow cmd .waitValue .tok = some ⟨some cmd, some .waitValue, .tok, .hValue, .executing⟩ := by
  simp only [List.mem_cons, List.not_mem_nil, or_false] at h
  obtain rfl | rfl := h <;> rfl

/-- No row matches where none asks for both this state and this command byte. -/
theorem lookupRow_eq_none {st : ProtocolState} {e : EventKind}
    (h : ∀ row ∈ ruleTable, row.event = e → (row.required = none ∨ row.required = some st) →
      ∃ b, row.cmdChar = some b ∧ cmd ≠ b) : lookupRow cmd st e = none := by
  rw [lookupRow, List.find?_eq_none]
  intro row hrow hmatches
  obtain ⟨hcmd, hst, he⟩ := Row.matches_iff.mp hmatches
  obtain ⟨b, hb, hne⟩ := h row hrow he hst
  rw [hb] at hcmd
  simp only [reduceCtorEq, Option.some_inj, false_or] at hcmd
  exact hne hcmd.symm

end

/-- A `TOK` event with a row runs the row's handler (R103, R104). -/
theorem tokenEvent_of_row {s : State} {row : Row} {handler : Lexer → Command → Except Cause Command}
    (hrow : lookupRow s.command.cmd s.st .tok = some row) (hhandler : row.handler.onToken = some handler) :
    tokenEvent s = (handler s.lex s.command).map
      (fun r => { s with command := r, lex := clearedLexer, st := row.hint }) := by
  simp only [tokenEvent, hrow, hhandler]
  cases handler s.lex s.command <;> rfl

theorem tokenEvent_of_none {s : State} (hrow : lookupRow s.command.cmd s.st .tok = none) :
    tokenEvent s = .error .noRule := by
  simp only [tokenEvent, hrow]

/-- Settles O16: in each protocol state the rows that ask for it, found by their command byte. -/
theorem tokenEvents : Obligations.TokenEvents := by
  intro s adopt
  cases hst : s.st with
  | ready =>
    exact tokenEvent_of_row (row := ⟨none, some .ready, .tok, .hCmd, .waitChip⟩) (by rw [hst, lookupRow_ready]) rfl
  | waitChip =>
    dsimp only
    split_ifs with hscan haddress
    · exact tokenEvent_of_row (hst ▸ lookupRow_waitChip_scan hscan) rfl
    · exact tokenEvent_of_row (hst ▸ lookupRow_waitChip_address haddress) rfl
    · refine tokenEvent_of_none (hst ▸ lookupRow_eq_none ?_)
      simpa [ruleTable, and_assoc] using And.intro hscan haddress
  | waitAddress =>
    dsimp only
    split_ifs with hread hburn
    · exact tokenEvent_of_row (row := ⟨some cmdr, some .waitAddress, .tok, .hAddr, .executing⟩)
        (by rw [hst, hread, lookupRow_waitAddress_read]) rfl
    · exact tokenEvent_of_row (hst ▸ lookupRow_waitAddress_burn hburn) rfl
    · refine tokenEvent_of_none (hst ▸ lookupRow_eq_none ?_)
      simpa [ruleTable] using And.intro hread hburn
  | waitValue =>
    dsimp only
    split_ifs with hburn
    · exact tokenEvent_of_row (hst ▸ lookupRow_waitValue hburn) rfl
    · refine tokenEvent_of_none (hst ▸ lookupRow_eq_none ?_)
      simpa [ruleTable] using hburn
  | waitTestNumber => exact tokenEvent_of_none (hst ▸ lookupRow_eq_none (by simp [ruleTable]))
  | waitTestParams => exact tokenEvent_of_none (hst ▸ lookupRow_eq_none (by simp [ruleTable]))
  | executing => exact tokenEvent_of_none (hst ▸ lookupRow_eq_none (by simp [ruleTable]))

/-! ### The rows of an `EOL` event -/

/-- The Command register holds no live command exactly when its command byte is none of the six (30_encoding.md R88). -/
theorem live_eq_none_iff {r : Command} : r.live = none ↔ r.cmd ∉ [cmdV, cmdR, cmdK, cmdr, cmdw, cmds] := by
  unfold Command.live
  split_ifs <;> simp_all

theorem live_of_cmdV {r : Command} (h : r.cmd = cmdV) : r.live = some .version := if_pos h

/-- In `Executing` no execute row matches a command byte that is none of the six. -/
theorem lookupRow_executing_eol_of_none {r : Command} (h : r.live = none) : lookupRow r.cmd .executing .eol = none := by
  refine lookupRow_eq_none ?_
  simpa [ruleTable] using live_eq_none_iff.mp h

/-- Outside `Executing` only `V` has an execute row. -/
theorem lookupRow_eol_of_not_executing {cmd : Byte} {st : ProtocolState} (hcmd : cmd ≠ cmdV) (hst : st ≠ .executing) :
    lookupRow cmd st .eol = none := by
  refine lookupRow_eq_none ?_
  simpa [ruleTable, hst.symm] using hcmd

theorem lineEvent_of_none {s : State} (hready : s.st ≠ .ready) (hrow : lookupRow s.command.cmd s.st .eol = none) :
    lineEvent s = .next (s.raise .noRule .lf) :=
  lineEvent_of_lineCause (lineCause_eq_some_iff.mpr ⟨rfl, hready, hrow⟩)

/-- Settles O17: the execute row of `V` asks for no state, those of the other commands for `Executing`. -/
theorem lineEvents : Obligations.LineEvents := by
  intro s
  split_ifs with hready hversion hexecuting
  · exact if_pos hready
  · exact lineEvent_of_live (live_of_cmdV hversion) (.inr ⟨rfl, hready⟩)
  · cases hlive : s.command.live with
    | some i => exact lineEvent_of_live hlive (.inl hexecuting)
    | none => exact lineEvent_of_none hready (hexecuting ▸ lookupRow_executing_eol_of_none hlive)
  · exact lineEvent_of_none hready (lookupRow_eol_of_not_executing hversion hexecuting)

end Sys2Proof.Machine

/-! SUPPORT. Single steps: the reset and the chip (70_reset_and_hazards.md R166), the way out of an error (40_interpreter.md
R113), the step as the meaning of a command (R95, R111), the first and the last line of a command, and the socket without a
chip of the selected profile (20_memory.md R61). -/

namespace Sys2Proof.Machine

/-! ### Reset -/

/-- Settles O56: the reset state is one at rest. -/
theorem invAtReset : Obligations.InvAtReset :=
  inv_of_ready rfl rfl rfl rfl rfl reset_cells_wf rfl ⟨rfl, rfl, rfl, rfl, rfl⟩ (by decide) rfl

theorem cutByReset_of_quiet {c : Chip} (h : c.stage = .quiet) (old : Bus) : c.cutByReset old = c.toStage .quiet := by
  simp only [Chip.cutByReset, h]

/-- What a reset can do to a cell: nothing, or, in the addressed one, set the driven bit (20_memory.md R52). -/
theorem cutByReset_readCell {c : Chip} (hw : c.cells.wf = true) (old : Bus) (a : Nat) :
    readCell (c.cutByReset old).cells a = readCell c.cells a ∨
    (a = old.abus.toNat ∧ readCell (c.cutByReset old).cells a = readCell c.cells a ||| old.progSel) := by
  obtain hsame | hburn := cutByReset_cells_cases c old
  · exact .inl (by rw [hsame])
  · rw [hburn, c.burn_readCell old hw a]
    split
    · next ha =>
      split
      · exact .inr ⟨ha, by rw [ha]⟩
      · exact .inl (by rw [ha])
    · exact .inl rfl

/-- Settles O3: the reset state has an empty queue and idle outputs, and what the reset does to the chip is
`Chip.cutByReset`. -/
theorem resetKeepsChip : Obligations.ResetKeepsChip := by
  intro s t hw hrst hstep
  rw [step_of_rst hrst] at hstep
  cases hstep
  refine ⟨rfl, rfl, rfl, rfl, rfl, fun hquiet => ?_, fun a ha => ?_, ?_⟩
  · rw [State.resetStep_chip, cutByReset_of_quiet hquiet, Chip.toStage_cells]
  · exact (cutByReset_readCell hw s.bus a).resolve_right fun h => ha h.1
  · exact (cutByReset_readCell hw s.bus s.bus.abus.toNat).imp_right And.right

/-! ### The way out of an error -/

theorem byteStep_of_discard {s : State} (c : Byte) (h : s.discard = true) : byteStep c s = .next (s.discardByte c) := by
  simp only [byteStep, h, if_true]

/-- Discarding writes `discard` alone (R113). -/
theorem discardByte_eq {s : State} (c : Byte) (h : s.discard = true) :
    s.discardByte c = { s with discard := decide (c ≠ asciiLF) } := by
  unfold State.discardByte
  split
  · next hc => rw [decide_eq_false (not_not.mpr hc)]
  · next hc => rw [decide_eq_true hc, ← h]

/-- Settles O20: the byte step writes `discard`, and the rest of the cycle moves the input levels and the chip's count on. -/
theorem discardToLineFeed : Obligations.DiscardToLineFeed := by
  intro s c hdiscard haccepted
  have hbyte := byteStep_of_discard (s := s.acceptByte) c hdiscard
  rw [discardByte_eq (s := s.acceptByte) c hdiscard] at hbyte
  exact step_of_accepted haccepted hbyte rfl

/-! ### The step as the meaning of a command -/

/-- R95 with `rst` = 0. -/
theorem step_of_not_rst {s : State} (h : s.portsNow.rst = false) :
    step s = andThen (blockStep s) (State.endStep s) := by
  simp only [step, clockStep, h, Bool.false_eq_true, if_false]

/-- A step in which a byte is accepted is its byte step, with the end of the step after it. -/
theorem step_of_accepted_eq {s : State} {c : Byte} (h : s.accepted = some c) :
    step s = andThen (byteStep c s.acceptByte) (State.endStep s) := by
  obtain ⟨hready, -⟩ := accepted_eq_some_iff.mp h
  obtain ⟨-, -, -, hrst⟩ := rxReady_iff.mp hready
  rw [step_of_not_rst hrst, blockStep_of_accepted h]

/-- Settles O21: at its line feed through the line event of R103, and while the engine runs by R95 (2). -/
theorem stepRunsCommand : Obligations.StepRunsCommand := by
  refine ⟨fun s i hbegins => ?_, fun s i hrst hrun hlive => ?_⟩
  · obtain ⟨u, hline, hlive, hst⟩ := hbegins.line
    refine ⟨u.acceptByte, atLineEnd_acceptByte hline, ?_⟩
    rw [step_of_accepted_eq hbegins.accepts, byteStep_lf (s := s.acceptByte) hbegins.keeps hbegins.inv.protocol,
      lfByte_of_atLineEnd (atLineEnd_acceptByte hline), lineEvent_of_live (u := u.acceptByte) hlive hst]
  · rw [step_of_not_rst hrst, blockStep_of_running hrun hlive]

/-- The state that holds a command accepts a line feed. -/
theorem holding_accepted (i : Instr) (s : State) : (s.holding i).accepted = some asciiLF := by
  refine accepted_eq_some_iff.mpr ⟨rxReady_iff.mpr ⟨rfl, rfl, rfl, rfl⟩, rfl⟩

theorem holding_live (i : Instr) (s : State) : (s.holding i).command.live = some i := by cases i <;> rfl

theorem holding_st (i : Instr) (s : State) :
    (s.holding i).st = .executing ∨ i = .version ∧ (s.holding i).st ≠ .ready := by
  cases i <;> simp [State.holding]

theorem withFetchWord_of_decoded {s : State} {nbits w : Nat} {i : Instr} (h : decodeTableWord nbits w = some i) :
    s.withFetchWord nbits w = s.holding i := by
  simp only [State.withFetchWord, placeWord, h]

/-- Settles O22: the word is placed as the state that holds its command, whose line event is the command's meaning. -/
theorem fetchWordRuns : Obligations.FetchWordRuns := by
  intro s nbits w i hdecoded
  have hst : (s.holding i).acceptByte.st.reserved = false := by
    obtain h | ⟨rfl, -⟩ := holding_st i s
    · simp [h, ProtocolState.reserved]
    · rfl
  rw [withFetchWord_of_decoded hdecoded, step_of_accepted_eq (holding_accepted i s),
    byteStep_lf (s := (s.holding i).acceptByte) rfl hst, lfByte_of_atLineEnd (u := (s.holding i).acceptByte) rfl,
    lineEvent_of_live (u := (s.holding i).acceptByte) (holding_live i s) (holding_st i s)]

/-! ### The first and the last line of a command -/

theorem firstPoint_ne_idle (i : Instr) : firstPoint i ≠ .idle := by cases i <;> simp [firstPoint]

/-- Settles O23: from `E_IDLE` every command starts at its first line. -/
theorem commandStarts : Obligations.CommandStarts := fun i _ hidle =>
  ⟨firstPoint_ne_idle i, exec_of_idle i hidle⟩

/-- The payload of a command at its last line, from the engine's registers (41_commands.md R117 to R124). -/
def payloadOf (i : Instr) (e : Engine) : List Byte :=
  match i with
  | .version => Config.versionCode
  | .readAll chip => crlf ++ hex3 (BitVec.ofNat 12 (cellCount chip))
  | .blankCheck _ => hex3 (e.scanA.zeroExtend 12)
  | .readByte _ _ => hex2 e.b
  | .program _ _ _ => hex2 e.achieved
  | .simulate _ _ _ => hex2 e.achieved

/-- The line at the engine's point, with no wait left. -/
def lineOf (i : Instr) : Point → State → Result :=
  match i with
  | .version => versionLine
  | .readAll chip => readAllLine chip
  | .blankCheck chip => blankCheckLine chip
  | .readByte chip addr => readByteLine chip addr
  | .program chip addr value => burnLine true chip addr value
  | .simulate chip addr value => burnLine false chip addr value

theorem exec_eq_runCommand (i : Instr) (s : State) : exec i s = s.runCommand (firstPoint i) (lineOf i) := by
  cases i <;> rfl

theorem exec_of_line (i : Instr) {s : State} (hrun : s.eng.point ≠ .idle) (htmr : s.eng.tmr = 0#32) :
    exec i s = lineOf i s.eng.point s := by
  rw [exec_eq_runCommand, runCommand_line hrun htmr]

theorem lineOf_respond (i : Instr) (s : State) :
    lineOf i .respond s = .next (s.finish (payloadOf i s.eng ++ okTrailer)) := by
  cases i <;> rfl

/-- At its last line a command queues its payload with the success trailer and is over (R115 (d)). -/
theorem exec_of_respond (i : Instr) {s : State} (hpoint : s.eng.point = .respond) (htmr : s.eng.tmr = 0#32) :
    exec i s = .next (s.finish (payloadOf i s.eng ++ okTrailer)) := by
  rw [exec_of_line i (by simp [hpoint]) htmr, hpoint, lineOf_respond]

/-- Settles O24: the last line of each command is `State.finish` with its payload. -/
theorem commandEnds : Obligations.CommandEnds := by
  intro i s hpoint htmr
  rw [exec_of_respond i hpoint htmr, State.finish, State.emit, ← List.append_assoc]
  cases i <;> rfl

/-! ### The socket without a chip of the selected profile -/

theorem readConditions_of_mismatch {c : Chip} {b : Bus} (h : c.socket.matches b.chipSel = false) :
    c.readConditions b = false := by
  simp [Chip.readConditions, h]

/-- A sample there is a free byte (R50, R61; log 8). -/
theorem answer_of_mismatch {c : Chip} {b : Bus} (h : c.socket.matches b.chipSel = false) :
    c.answer b = .ok (Config.strayByte c.draws, { c with draws := c.draws + 1 }) := by
  simp [Chip.answer, readConditions_of_mismatch h]

theorem beginSequence_of_mismatch {c : Chip} {b : Bus} (haddr : addrInRange b.chipSel b.abus = true)
    (h : c.socket.matches b.chipSel = false) : c.beginSequence b = .error .programmingUnspecified := by
  simp [Chip.beginSequence, haddr, h]

/-- A change that starts a programming sequence drives a line where none was driven (42_programming_engine.md R135). -/
theorem drivesLine_progSel {old new : Bus} (h : drivesLine old new = true) :
    new.progSel ≠ 0x00#8 ∧ old.progSel = 0x00#8 := by
  simp only [drivesLine, Bool.and_eq_true, decide_eq_true_eq] at h
  obtain ⟨⟨⟨⟨honehot, -⟩, hold⟩, -⟩, -⟩ := h
  refine ⟨fun hzero => ?_, hold⟩
  rw [hzero] at honehot
  exact absurd honehot (by decide)

/-- The start of a programming sequence is seen as such. -/
theorem observe_drivesLine {c : Chip} {old new : Bus} (hquiet : c.stage = .quiet) (h : drivesLine old new = true) :
    c.observe old new = c.beginSequence new := by
  obtain ⟨hnew, hold⟩ := drivesLine_progSel h
  have hne : new ≠ old := fun hsame => hnew (hsame.symm ▸ hold)
  rw [observe_advance hne (fun hq => by simp [Bus.outsideSequence, hnew] at hq) (by rw [hquiet]; exact h), Chip.advance,
    hquiet]

/-- Settles O49: without a matching chip the read conditions fail, and a programming sequence does not begin. -/
theorem emptySocket : Obligations.EmptySocket := fun _ _ _ hmismatch =>
  ⟨answer_of_mismatch hmismatch, fun hquiet haddr hline =>
    (observe_drivesLine hquiet hline).trans (beginSequence_of_mismatch haddr hmismatch)⟩

/-! ### The reserved protocol states -/

theorem byteStep_of_reserved {s : State} {c : Byte} (hdiscard : s.discard = false) (hst : s.st.reserved = true)
    (hclass : classOf c = .delim ∨ classOf c = .lf) : byteStep c s = .fault .reservedProtocolState := by
  obtain h | h := hclass <;> simp only [byteStep, hdiscard, h, hst, Bool.false_eq_true, if_false, if_true]

/-- Settles O60: the invariant rules the reserved states out, and an event in one is the fault. -/
theorem reservedStateStops : Obligations.ReservedStateStops := by
  refine ⟨fun s hinv => ?_, fun s c hst hdiscard haccepted hclass => ?_⟩
  · have hprotocol := hinv.protocol
    exact ⟨fun h => by simp [h, ProtocolState.reserved] at hprotocol,
      fun h => by simp [h, ProtocolState.reserved] at hprotocol⟩
  · have hreserved : s.st.reserved = true := by obtain h | h := hst <;> rw [h] <;> rfl
    rw [step_of_accepted_eq haccepted, byteStep_of_reserved (s := s.acceptByte) hdiscard hreserved hclass, andThen_fault]

end Sys2Proof.Machine

/-! SUPPORT. What a line of a command can do, said once: the lines of the six commands as one relation between the state before
and the state after, with the point, the command and the test that lead to each (41_commands.md R117 to R124,
42_programming_engine.md R130 to R139). Frames of a step follow by cases on it. -/

namespace Sys2Proof.Machine

/-! ### The lines -/

/-- The command burns a byte: `w` or `s`. -/
def burns : Instr → Bool
  | .program _ _ _ => true
  | .simulate _ _ _ => true
  | _ => false

/-- The value field of `w` and `s`. -/
def valueOf : Instr → Byte
  | .program _ _ value => value
  | .simulate _ _ value => value
  | _ => 0x00#8

/-- The line after `en <- 1` of `PowerUp` (R118, R120, R122 to R124). -/
def afterPath : Instr → Point
  | .readAll _ => .scanFirst
  | .blankCheck _ => .scanZero
  | _ => .readAddr

/-- The line after the read of a command that keeps the byte in `b` (R118, R120, R122). -/
def afterRead : Instr → Point
  | .readAll _ => .scanEmit
  | .blankCheck _ => .blankTest
  | _ => .powerDown

/-- The lines that can be, or be followed in their own cycle by, the first line of `PowerDown` with no register written. -/
def downFrom : Instr → List Point
  | .version => []
  | .readAll _ => []
  | .blankCheck _ => [.blankLoop, .blankTest]
  | .readByte _ _ => [.powerDown]
  | .program _ _ _ => [.burnTest, .verifyTest]
  | .simulate _ _ _ => [.burnTest, .verifyTest]

/-- The bit loop has found the burnable position `k` (R139). -/
structure Engine.finds (e : Engine) (k : Nat) : Prop where
  lt : k < 8
  unset : e.existing.getLsbD k = false
  wanted : e.target.getLsbD k = true

/-- `Ran i s u`: the line at the engine's point of `s` takes the command `i` from `s` to `u`. -/
inductive Ran (i : Instr) (s : State) : State → Prop
  | count (hi : scans i = true) (hp : s.eng.point = .countCells) : Ran i s (s.goto .selectChip)
  | select (hi : i ≠ .version) (hp : s.eng.point = .selectChip) : Ran i s (s.selectChip (profileOf i))
  | powerOn (hi : i ≠ .version) (hp : s.eng.point = .powerOn) : Ran i s s.powerOn
  | path (hi : i ≠ .version) (hp : s.eng.point = .pathOn) : Ran i s (s.openPath (afterPath i))
  | address (hi : i ≠ .version) (hscan : scans i = false) (hp : s.eng.point = .readAddr) :
      Ran i s (s.readAt (cellOf i s.eng.scanA))
  | read {b : Byte} {c : Chip} (hi : i ≠ .version) (hburn : burns i = false) (hp : s.eng.point = .readSample)
      (hc : s.chip.answer s.bus = .ok (b, c)) : Ran i s ((State.setB b { s with chip := c }).goto (afterRead i))
  | readExisting {b : Byte} {c : Chip} (hburn : burns i = true) (hp : s.eng.point = .readSample)
      (hc : s.chip.answer s.bus = .ok (b, c)) : Ran i s ((State.setExisting b { s with chip := c }).goto .pathOff)
  | emit {chip : Profile} (hi : i = .readAll chip) (hp : s.eng.point = .scanEmit) :
      Ran i s ((s.emit (hex2 s.eng.b)).goto .scanNext)
  | cell {chip : Profile} (a : BitVec 10) (hi : i = .readAll chip) (hp : s.eng.point ∈ [.scanFirst, .scanNext])
      (ha : a.toNat < cellCount chip) : Ran i s ((s.setScan a).readAt (a.truncate 9))
  | lastCell {chip : Profile} (a : BitVec 10) (hi : i = .readAll chip)
      (hp : s.eng.point = .scanFirst ∧ a = 0#10 ∨ s.eng.point = .scanNext ∧ a = s.eng.scanA + 1#10) :
      Ran i s ((s.setScan a).powerDown)
  | scanZero {chip : Profile} (hi : i = .blankCheck chip) (hp : s.eng.point = .scanZero) :
      Ran i s ((s.setScan 0#10).goto .blankLoop)
  | blankCell {chip : Profile} (hi : i = .blankCheck chip) (hp : s.eng.point = .blankLoop)
      (ha : s.eng.scanA.toNat < cellCount chip) : Ran i s (s.readAt (s.eng.scanA.truncate 9))
  | blank {chip : Profile} (hi : i = .blankCheck chip) (hp : s.eng.point = .blankTest) :
      Ran i s ((s.setScan (s.eng.scanA + 1#10)).goto .blankLoop)
  | powerDown (hi : i ≠ .version)
      (hp : s.eng.point ∈ downFrom i) : Ran i s s.powerDown
  | loopEnd (k : Nat) (hburn : burns i = true) (hp : s.eng.point ∈ [.burnTest, .bitNext]) (hk : k ≤ 8) :
      Ran i s ((s.setBit k).powerDown)
  | powerOff (hi : i ≠ .version) (hp : s.eng.point = .powerOff) : Ran i s s.powerOff
  | respond (hp : s.eng.point = .respond) : Ran i s (s.finish (payloadOf i s.eng ++ okTrailer))
  | pathOff (hburn : burns i = true) (hp : s.eng.point = .pathOff) : Ran i s ((s.setEn false).goto .setTarget)
  | target (hburn : burns i = true) (hp : s.eng.point = .setTarget) : Ran i s (s.setTarget (valueOf i) (programs i))
  | copy (hburn : burns i = true) (hp : s.eng.point = .copyExisting) : Ran i s s.copyExisting
  | selectLine (k : Nat) (hburn : burns i = true) (hp : s.eng.point ∈ [.burnTest, .bitNext]) (hreal : s.eng.real = true)
      (hk : s.eng.finds k) : Ran i s ((s.setBit k).selectLine k)
  | simulated (k : Nat) (hburn : burns i = true) (hp : s.eng.point ∈ [.burnTest, .bitNext]) (hk : s.eng.finds k) :
      Ran i s ((s.setBit k).recordBit k)
  | raise (hburn : burns i = true) (hp : s.eng.point = .burnRaise) :
      Ran i s (((s.setSupply .program).wait Config.nSettle).goto .burnEnable)
  | enable (hburn : burns i = true) (hp : s.eng.point = .burnEnable) :
      Ran i s (((s.setEn true).wait Config.nPulse).goto .burnDisable)
  | disable (hburn : burns i = true) (hp : s.eng.point = .burnDisable) : Ran i s ((s.setEn false).goto .burnDrop)
  | drop (hburn : burns i = true) (hp : s.eng.point = .burnDrop) : Ran i s ((s.setSupply .nominal).goto .burnRelease)
  | release (hburn : burns i = true) (hp : s.eng.point = .burnRelease) :
      Ran i s ((s.setProgSel 0x00#8).goto .verifyEnable)
  | verify (hburn : burns i = true) (hp : s.eng.point = .verifyEnable) :
      Ran i s (((s.setEn true).wait Config.nRead).goto .verifySample)
  | verified {b : Byte} {c : Chip} (hburn : burns i = true) (hp : s.eng.point = .verifySample)
      (hc : s.chip.answer s.bus = .ok (b, c)) : Ran i s (State.takeVerify b { s with chip := c })
  | record (hburn : burns i = true) (hp : s.eng.point = .verifyTest) : Ran i s (s.recordBit s.eng.bit.toNat)

/-! ### Every line is one of them -/

section
variable {i : Instr} {s u : State}

theorem ran_bitLoop (k : Nat) (hburn : burns i = true) (hp : s.eng.point ∈ [.burnTest, .bitNext]) :
    Ran i s (bitLoop k s) := by
  have hspec := nextBit_spec s.eng.existing s.eng.target (8 - k) k
  cases hnext : nextBit s.eng.existing s.eng.target (8 - k) k with
  | done => rw [bitLoop_of_done hnext]; exact .loopEnd 8 hburn hp le_rfl
  | impossible j =>
    obtain ⟨-, hj⟩ := nextBit_impossible_bounds hnext
    rw [bitLoop_of_impossible hnext]
    exact .loopEnd j hburn hp hj.le
  | burnable j =>
    rw [hnext] at hspec
    obtain ⟨-, -, hunset, hwanted, -⟩ := hspec
    obtain ⟨-, hj⟩ := nextBit_burnable_bounds hnext
    cases hreal : s.eng.real with
    | true => rw [bitLoop_of_burnable_real hnext hreal]; exact .selectLine j hburn hp hreal ⟨hj, hunset, hwanted⟩
    | false => rw [bitLoop_of_burnable_simulated hnext hreal]; exact .simulated j hburn hp ⟨hj, hunset, hwanted⟩

theorem ne_version_of_burns (h : burns i = true) : i ≠ .version := by rintro rfl; cases h

theorem downFrom_of_burns (h : burns i = true) : downFrom i = [.burnTest, .verifyTest] := by
  cases i with
  | program => rfl
  | simulate => rfl
  | _ => cases h

theorem ran_burnTest (hburn : burns i = true) (hp : s.eng.point = .burnTest) : Ran i s (burnTest s) := by
  unfold burnTest
  split
  · exact .powerDown (ne_version_of_burns hburn) (by simp [downFrom_of_burns hburn, hp])
  · exact ran_bitLoop 0 hburn (by simp [hp])

theorem ran_verifyTest (hburn : burns i = true) (hp : s.eng.point = .verifyTest) : Ran i s (verifyTest s) := by
  unfold verifyTest
  split
  · exact .record hburn hp
  · exact .powerDown (ne_version_of_burns hburn) (by simp [downFrom_of_burns hburn, hp])

theorem ran_scanCell {chip : Profile} (a : BitVec 10)
    (hp : s.eng.point = .scanFirst ∧ a = 0#10 ∨ s.eng.point = .scanNext ∧ a = s.eng.scanA + 1#10) :
    Ran (.readAll chip) s (scanCell chip a s) := by
  unfold scanCell
  split
  · next ha =>
    refine .cell a rfl ?_ ha
    obtain ⟨hp, -⟩ | ⟨hp, -⟩ := hp <;> simp [hp]
  · exact .lastCell a rfl hp

theorem ran_blankCell {chip : Profile} (hp : s.eng.point = .blankLoop) :
    Ran (.blankCheck chip) s (blankCell chip s) := by
  unfold blankCell
  split
  · next ha => exact .blankCell rfl hp ha
  · exact .powerDown nofun (by simp [downFrom, hp])

theorem ran_blankStep {chip : Profile} (hp : s.eng.point = .blankTest) :
    Ran (.blankCheck chip) s (blankStep s) := by
  unfold blankStep
  split
  · exact .powerDown nofun (by simp [downFrom, hp])
  · exact .blank rfl hp

theorem versionLine_ran {p : Point} (hp : s.eng.point = p) (h : versionLine p s = .next u) : Ran .version s u := by
  cases p with
  | respond => cases h; exact .respond hp
  | _ => cases h

theorem readAllLine_ran {chip : Profile} {p : Point} (hp : s.eng.point = p) (h : readAllLine chip p s = .next u) :
    Ran (.readAll chip) s u := by
  cases p with
  | countCells => cases h; exact .count rfl hp
  | selectChip => cases h; exact .select nofun hp
  | powerOn => cases h; exact .powerOn nofun hp
  | pathOn => cases h; exact .path nofun hp
  | scanFirst => cases h; exact ran_scanCell 0#10 (.inl ⟨hp, rfl⟩)
  | readSample =>
    simp only [readAllLine] at h
    obtain ⟨b, c, hc, rfl⟩ := sampleBus_cases h
    exact .read nofun rfl hp hc
  | scanEmit => cases h; exact .emit rfl hp
  | scanNext => cases h; exact ran_scanCell _ (.inr ⟨hp, rfl⟩)
  | powerOff => cases h; exact .powerOff nofun hp
  | respond => cases h; exact .respond hp
  | _ => cases h

theorem blankCheckLine_ran {chip : Profile} {p : Point} (hp : s.eng.point = p) (h : blankCheckLine chip p s = .next u) :
    Ran (.blankCheck chip) s u := by
  cases p with
  | countCells => cases h; exact .count rfl hp
  | selectChip => cases h; exact .select nofun hp
  | powerOn => cases h; exact .powerOn nofun hp
  | pathOn => cases h; exact .path nofun hp
  | scanZero => cases h; exact .scanZero rfl hp
  | blankLoop => cases h; exact ran_blankCell hp
  | readSample =>
    simp only [blankCheckLine] at h
    obtain ⟨b, c, hc, rfl⟩ := sampleBus_cases h
    exact .read nofun rfl hp hc
  | blankTest => cases h; exact ran_blankStep hp
  | powerOff => cases h; exact .powerOff nofun hp
  | respond => cases h; exact .respond hp
  | _ => cases h

theorem readByteLine_ran {chip : Profile} {addr : CellAddr} {p : Point} (hp : s.eng.point = p)
    (h : readByteLine chip addr p s = .next u) : Ran (.readByte chip addr) s u := by
  cases p with
  | selectChip => cases h; exact .select nofun hp
  | powerOn => cases h; exact .powerOn nofun hp
  | pathOn => cases h; exact .path nofun hp
  | readAddr => cases h; exact .address nofun rfl hp
  | readSample =>
    simp only [readByteLine] at h
    obtain ⟨b, c, hc, rfl⟩ := sampleBus_cases h
    exact .read nofun rfl hp hc
  | powerDown => cases h; exact .powerDown nofun (by simp [downFrom, hp])
  | powerOff => cases h; exact .powerOff nofun hp
  | respond => cases h; exact .respond hp
  | _ => cases h

theorem burns_burnCommand (real : Bool) (chip : Profile) (addr : CellAddr) (value : Byte) :
    burns (burnCommand real chip addr value) = true := by cases real <;> rfl

theorem burnLine_ran {real : Bool} {chip : Profile} {addr : CellAddr} {value : Byte} {p : Point} (hp : s.eng.point = p)
    (h : burnLine real chip addr value p s = .next u) : Ran (burnCommand real chip addr value) s u := by
  have hburn := burns_burnCommand real chip addr value
  have hi := ne_version_of_burns hburn
  cases p with
  | selectChip => cases h; cases real <;> exact .select hi hp
  | powerOn => cases h; exact .powerOn hi hp
  | pathOn => cases h; cases real <;> exact .path hi hp
  | readAddr => cases h; cases real <;> exact .address hi rfl hp
  | readSample =>
    simp only [burnLine] at h
    obtain ⟨b, c, hc, rfl⟩ := sampleBus_cases h
    exact .readExisting hburn hp hc
  | pathOff => cases h; exact .pathOff hburn hp
  | setTarget => cases h; cases real <;> exact .target hburn hp
  | copyExisting => cases h; exact .copy hburn hp
  | burnTest => cases h; exact ran_burnTest hburn hp
  | burnRaise => cases h; exact .raise hburn hp
  | burnEnable => cases h; exact .enable hburn hp
  | burnDisable => cases h; exact .disable hburn hp
  | burnDrop => cases h; exact .drop hburn hp
  | burnRelease => cases h; exact .release hburn hp
  | verifyEnable => cases h; exact .verify hburn hp
  | verifySample =>
    obtain ⟨b, c, hc, rfl⟩ := sampleBus_cases h
    exact .verified hburn hp hc
  | verifyTest => cases h; exact ran_verifyTest hburn hp
  | bitNext => cases h; exact ran_bitLoop _ hburn (by simp [hp])
  | powerOff => cases h; exact .powerOff hi hp
  | respond => cases h; cases real <;> exact .respond hp
  | _ => cases h

theorem lineOf_ran (h : lineOf i s.eng.point s = .next u) : Ran i s u := by
  cases i with
  | version => exact versionLine_ran rfl h
  | readAll chip => exact readAllLine_ran rfl h
  | blankCheck chip => exact blankCheckLine_ran rfl h
  | readByte chip addr => exact readByteLine_ran rfl h
  | program chip addr value => exact burnLine_ran (real := true) rfl h
  | simulate chip addr value => exact burnLine_ran (real := false) rfl h

/-- What a clock cycle of a command can do: start, count a wait down, or run the line at its point. -/
theorem exec_cases (h : exec i s = .next u) :
    (s.eng.point = .idle ∧ u = s.start (firstPoint i)) ∨
    (s.eng.point ≠ .idle ∧ s.eng.tmr ≠ 0#32 ∧ u = s.tick) ∨
    (s.eng.point ≠ .idle ∧ s.eng.tmr = 0#32 ∧ Ran i s u) := by
  rw [exec_eq_runCommand] at h
  obtain hstart | hwait | ⟨hrun, htmr, hline⟩ := runCommand_cases h
  · exact .inl hstart
  · exact .inr (.inl hwait)
  · exact .inr (.inr ⟨hrun, htmr, lineOf_ran hline⟩)

end

/-! ### What a line leaves alone -/

section
variable {i : Instr} {s u : State}

theorem Ran.lex (h : Ran i s u) : u.lex = s.lex := by cases h <;> rfl
theorem Ran.discard (h : Ran i s u) : u.discard = s.discard := by cases h <;> rfl
theorem Ran.errCause (h : Ran i s u) : u.errCause = s.errCause := by cases h <;> rfl
theorem Ran.busy (h : Ran i s u) : u.busy = s.busy := by cases h <;> rfl

/-- Only the last line ends the command. -/
theorem Ran.command (h : Ran i s u) :
    (u.st = s.st ∧ u.command = s.command) ∨ (s.eng.point = .respond ∧ u.st = .ready ∧ u.command = emptyCommand) := by
  cases h with
  | respond hp => exact .inr ⟨hp, rfl, rfl⟩
  | _ => exact .inl ⟨rfl, rfl⟩

/-- Bytes are queued by the last line, and by the data line of `R`. -/
theorem Ran.txq (h : Ran i s u) :
    u.txq = s.txq ∨ (s.eng.point = .respond ∧ u = s.finish (payloadOf i s.eng ++ okTrailer)) ∨
    (s.eng.point = .scanEmit ∧ (∃ chip, i = .readAll chip) ∧ u.txq = s.txq ++ hex2 s.eng.b) := by
  cases h with
  | respond hp => exact .inr (.inl ⟨hp, rfl⟩)
  | emit hi hp => exact .inr (.inr ⟨hp, ⟨_, hi⟩, rfl⟩)
  | _ => exact .inl rfl

theorem Ran.existing (h : Ran i s u) :
    u.eng.existing = s.eng.existing ∨ (s.eng.point = .readSample ∧ burns i = true) := by
  cases h with
  | readExisting hburn hp => exact .inr ⟨hp, hburn⟩
  | _ => exact .inl rfl

theorem Ran.target_real (h : Ran i s u) :
    (u.eng.target = s.eng.target ∧ u.eng.real = s.eng.real) ∨ (s.eng.point = .setTarget ∧ burns i = true) := by
  cases h with
  | target hburn hp => exact .inr ⟨hp, hburn⟩
  | _ => exact .inl ⟨rfl, rfl⟩

theorem Ran.ok (h : Ran i s u) : u.eng.ok = s.eng.ok ∨ (s.eng.point = .verifySample ∧ burns i = true) := by
  cases h with
  | verified hburn hp => exact .inr ⟨hp, hburn⟩
  | _ => exact .inl rfl

theorem Ran.achieved (h : Ran i s u) :
    u.eng.achieved = s.eng.achieved ∨
    (s.eng.point ∈ [.copyExisting, .burnTest, .verifyTest, .bitNext] ∧ burns i = true) := by
  cases h with
  | copy hburn hp => exact .inr ⟨by simp [hp], hburn⟩
  | simulated k hburn hp => exact .inr ⟨by revert hp; simp; tauto, hburn⟩
  | record hburn hp => exact .inr ⟨by simp [hp], hburn⟩
  | _ => exact .inl rfl

theorem Ran.bit (h : Ran i s u) :
    u.eng.bit = s.eng.bit ∨ (s.eng.point ∈ [.burnTest, .bitNext] ∧ burns i = true) := by
  cases h with
  | loopEnd k hburn hp => exact .inr ⟨hp, hburn⟩
  | selectLine k hburn hp => exact .inr ⟨hp, hburn⟩
  | simulated k hburn hp => exact .inr ⟨hp, hburn⟩
  | _ => exact .inl rfl

theorem Ran.b (h : Ran i s u) : u.eng.b = s.eng.b ∨ burns i = false := by
  cases h with
  | read hi hburn => exact .inr hburn
  | _ => exact .inl rfl

theorem Ran.scanA (h : Ran i s u) : u.eng.scanA = s.eng.scanA ∨ scans i = true := by
  cases h with
  | cell a hi => exact .inr (hi ▸ rfl)
  | lastCell a hi => exact .inr (hi ▸ rfl)
  | scanZero hi => exact .inr (hi ▸ rfl)
  | blank hi => exact .inr (hi ▸ rfl)
  | _ => exact .inl rfl

/-- The programming level is reached by its line of the pulse alone (42_programming_engine.md R135). -/
theorem Ran.supply_program (h : Ran i s u) (hu : u.bus.supply = .program) :
    s.bus.supply = .program ∨ (s.eng.point = .burnRaise ∧ burns i = true) := by
  cases h with
  | raise hburn hp => exact .inr ⟨hp, hburn⟩
  | powerOn => cases hu
  | drop => cases hu
  | powerOff => cases hu
  | _ => exact .inl hu

/-- The data lines change where `PowerUp` and `PowerDown` begin and where a pulse begins and ends; and each change but that
of `PowerUp` and `PowerDown` is one of the data lines alone. -/
theorem Ran.progSel (h : Ran i s u) :
    u.bus.progSel = s.bus.progSel ∨
    (u.bus.progSel = 0x00#8 ∧ s.eng.point.stageAt = .quiet ∧
      (burns i = true → s.eng.point ∈ [.selectChip, .burnTest, .verifyTest, .bitNext])) ∨
    (burns i = true ∧ s.eng.point ∈ [.burnTest, .bitNext, .burnRelease] ∧
      u.bus = { s.bus with progSel := u.bus.progSel }) := by
  cases h with
  | select hi hp => exact .inr (.inl ⟨rfl, by rw [hp]; rfl, fun _ => by simp [hp]⟩)
  | lastCell a hi hp =>
    refine .inr (.inl ⟨rfl, ?_, fun hburn => by rw [hi] at hburn; cases hburn⟩)
    obtain ⟨hp, -⟩ | ⟨hp, -⟩ := hp <;> rw [hp] <;> rfl
  | powerDown hi hp =>
    refine .inr (.inl ⟨rfl, ?_, fun hburn => ?_⟩)
    · revert hp
      cases i <;> simp +contextual [downFrom, or_imp, Point.stageAt]
    · rw [downFrom_of_burns hburn] at hp
      revert hp
      simp only [List.mem_cons]
      tauto
  | loopEnd k hburn hp =>
    refine .inr (.inl ⟨rfl, ?_, fun _ => ?_⟩)
    · revert hp
      simp +contextual [or_imp, Point.stageAt]
    · revert hp
      simp only [List.mem_cons]
      tauto
  | selectLine k hburn hp => exact .inr (.inr ⟨hburn, by revert hp; simp; tauto, rfl⟩)
  | release hburn hp => exact .inr (.inr ⟨hburn, by simp [hp], rfl⟩)
  | _ => exact .inl rfl

theorem Ran.chipSel (h : Ran i s u) : u.bus.chipSel = s.bus.chipSel ∨ s.eng.point = .selectChip := by
  cases h with
  | select hi hp => exact .inr hp
  | _ => exact .inl rfl

/-- The address changes where `PowerUp` begins and where a read begins (42_programming_engine.md R130, R132). -/
theorem Ran.abus (h : Ran i s u) :
    u.bus.abus = s.bus.abus ∨ s.eng.point = .selectChip ∨ (s.eng.point = .readAddr ∧ scans i = false) ∨
    (scans i = true ∧ s.eng.point ∈ [.scanFirst, .scanNext, .blankLoop] ∧ u.eng.point = .readSample) := by
  cases h with
  | select hi hp => exact .inr (.inl hp)
  | address hi hscan hp => exact .inr (.inr (.inl ⟨hp, hscan⟩))
  | cell a hi hp => exact .inr (.inr (.inr ⟨hi ▸ rfl, by revert hp; simp; tauto, rfl⟩))
  | blankCell hi hp => exact .inr (.inr (.inr ⟨hi ▸ rfl, by simp [hp], rfl⟩))
  | _ => exact .inl rfl

/-! ### Frames of a clock cycle of a command -/

theorem exec_lex (h : exec i s = .next u) : u.lex = s.lex := by
  obtain ⟨-, rfl⟩ | ⟨-, -, rfl⟩ | ⟨-, -, hran⟩ := exec_cases h
  · rfl
  · rfl
  · exact hran.lex

theorem exec_discard (h : exec i s = .next u) : u.discard = s.discard := by
  obtain ⟨-, rfl⟩ | ⟨-, -, rfl⟩ | ⟨-, -, hran⟩ := exec_cases h
  · rfl
  · rfl
  · exact hran.discard

/-- Bytes are only appended to the queue (10_state.md R42). -/
theorem exec_txq (h : exec i s = .next u) : ∃ new, u.txq = s.txq ++ new := by
  obtain ⟨-, rfl⟩ | ⟨-, -, rfl⟩ | ⟨-, -, hran⟩ := exec_cases h
  · exact ⟨[], by simp⟩
  · exact ⟨[], by simp⟩
  · obtain hsame | ⟨-, rfl⟩ | ⟨-, -, hemit⟩ := hran.txq
    · exact ⟨[], by simp [hsame]⟩
    · exact ⟨_, rfl⟩
    · exact ⟨_, hemit⟩

/-- While the engine runs, a cycle of a command leaves the status bits alone, and the command goes on or is over. -/
theorem exec_running (hrun : s.eng.point ≠ .idle) (h : exec i s = .next u) :
    u.errCause = s.errCause ∧ u.busy = s.busy ∧
    ((u.st = s.st ∧ u.command = s.command) ∨ (u.st = .ready ∧ u.command = emptyCommand)) := by
  obtain ⟨hidle, -⟩ | ⟨-, -, rfl⟩ | ⟨-, -, hran⟩ := exec_cases h
  · exact absurd hidle hrun
  · exact ⟨rfl, rfl, .inl ⟨rfl, rfl⟩⟩
  · exact ⟨hran.errCause, hran.busy, hran.command.imp_right And.right⟩

end

/-! ### The frames -/

theorem versionLine_frame {p : Point} {s u : State} (h : versionLine p s = .next u) :
    u.bus = s.bus ∧ u.eng.b = s.eng.b := by
  cases p with
  | respond => cases h; exact ⟨rfl, rfl⟩
  | _ => cases h

theorem execVersion_frame {s u : State} (h : exec .version s = .next u) : u.bus = s.bus ∧ u.eng.b = s.eng.b := by
  obtain ⟨-, rfl⟩ | ⟨-, -, rfl⟩ | ⟨-, -, hline⟩ := runCommand_cases h
  · exact ⟨rfl, rfl⟩
  · exact ⟨rfl, rfl⟩
  · exact versionLine_frame hline

/-- Settles O50: each clause by the cases of a line, none of which is a line of a burn. -/
theorem frameOfReads : Obligations.FrameOfReads := by
  intro i s t hi h
  have hburn : burns i = false := by
    obtain rfl | ⟨chip, rfl⟩ | ⟨chip, rfl⟩ | ⟨chip, addr, rfl⟩ := hi <;> rfl
  obtain ⟨draws, hchip⟩ := exec_chip h
  have hread (p : Point) : ¬ (s.eng.point = p ∧ burns i = true) := by simp [hburn]
  have hreads (ps : List Point) : ¬ (s.eng.point ∈ ps ∧ burns i = true) := by simp [hburn]
  refine ⟨by rw [hchip], by rw [hchip], by rw [hchip], exec_host h, exec_lex h, exec_discard h, ?_⟩
  obtain ⟨hidle, rfl⟩ | ⟨-, -, rfl⟩ | ⟨-, -, hran⟩ := exec_cases h
  · exact ⟨rfl, rfl, rfl, rfl, rfl, rfl, fun _ => ⟨rfl, rfl⟩, fun _ => rfl, id, .inl rfl, fun hrun => absurd hidle hrun,
      exec_txq h⟩
  · exact ⟨rfl, rfl, rfl, rfl, rfl, rfl, fun _ => ⟨rfl, rfl⟩, fun _ => rfl, id, .inl rfl, fun hrun => exec_running hrun h,
      exec_txq h⟩
  · obtain ⟨htarget, hreal⟩ := hran.target_real.resolve_right (hread _)
    refine ⟨hran.existing.resolve_right (hread _), htarget, hran.achieved.resolve_right (hreads _),
      hran.bit.resolve_right (hreads _), hreal, hran.ok.resolve_right (hread _), fun hv => ?_,
      fun hscan => hran.scanA.resolve_right (by simp [hscan]),
      fun hu => (hran.supply_program hu).resolve_right (hread _), ?_, fun hrun => exec_running hrun h, exec_txq h⟩
    · subst hv
      exact execVersion_frame h
    · obtain hsame | ⟨hzero, -⟩ | ⟨hb, -⟩ := hran.progSel
      · exact .inl hsame
      · exact .inr hzero
      · simp [hburn] at hb

/-- Settles O51: each clause by the cases of a line, whose points are those of the clause. -/
theorem frameOfBurns : Obligations.FrameOfBurns := by
  intro i s t hi h
  have hburn : burns i = true := by
    obtain ⟨chip, addr, value, rfl⟩ | ⟨chip, addr, value, rfl⟩ := hi <;> rfl
  have hscan : scans i = false := by
    obtain ⟨chip, addr, value, rfl⟩ | ⟨chip, addr, value, rfl⟩ := hi <;> rfl
  obtain ⟨draws, hchip⟩ := exec_chip h
  refine ⟨by rw [hchip], by rw [hchip], by rw [hchip], exec_host h, exec_lex h, exec_discard h, ?_⟩
  obtain ⟨hidle, rfl⟩ | ⟨-, -, rfl⟩ | ⟨-, -, hran⟩ := exec_cases h
  · exact ⟨rfl, rfl, fun _ => rfl, fun _ => ⟨rfl, rfl⟩, fun _ => rfl, fun _ => rfl, fun _ => rfl, fun _ => rfl,
      fun _ => ⟨rfl, fun _ => rfl⟩, .inl, fun hrun => absurd hidle hrun, exec_txq h⟩
  · exact ⟨rfl, rfl, fun _ => rfl, fun _ => ⟨rfl, rfl⟩, fun _ => rfl, fun _ => rfl, fun _ => rfl, fun _ => rfl,
      fun _ => ⟨rfl, fun _ => rfl⟩, .inl, fun hrun => exec_running hrun h, exec_txq h⟩
  · refine ⟨hran.b.resolve_right (by simp [hburn]), hran.scanA.resolve_right (by simp [hscan]),
      fun hp => hran.existing.resolve_right fun hx => hp hx.1, fun hp => hran.target_real.resolve_right fun hx => hp hx.1,
      fun hp => hran.ok.resolve_right fun hx => hp hx.1, fun hp => hran.achieved.resolve_right fun hx => hp hx.1,
      fun hp => hran.bit.resolve_right fun hx => hp hx.1, fun hp => hran.progSel.resolve_right ?_,
      fun hp => ⟨hran.chipSel.resolve_right hp, fun hp' => hran.abus.resolve_right ?_⟩,
      fun hu => (hran.supply_program hu).imp_right And.left, fun hrun => exec_running hrun h, exec_txq h⟩
    · simp only [List.mem_cons, List.not_mem_nil, or_false, not_or] at hp ⊢
      tauto
    · simp [hp, hp', hscan]

/-! ### The output queue over a step -/

@[simp] theorem discardByte_txq (c : Byte) (s : State) : (s.discardByte c).txq = s.txq := by
  unfold State.discardByte; split <;> rfl

@[simp] theorem discardByte_eng (c : Byte) (s : State) : (s.discardByte c).eng = s.eng := by
  unfold State.discardByte; split <;> rfl

theorem tokenEvent_txq {s t : State} (h : tokenEvent s = .ok t) : t.txq = s.txq := by
  obtain ⟨row, handler, command, -, -, -, rfl⟩ := tokenEvent_ok_cases h
  rfl

theorem lineEvent_txq {s u : State} (h : lineEvent s = .next u) : ∃ new, u.txq = s.txq ++ new := by
  obtain ⟨-, rfl⟩ | ⟨-, rfl⟩ | ⟨-, row, i, -, -, hexec⟩ := lineEvent_cases h
  · exact ⟨[], by simp⟩
  · exact ⟨_, rfl⟩
  · exact exec_txq hexec

theorem delimByte_txq {s u : State} (h : delimByte s = .next u) : ∃ new, u.txq = s.txq ++ new := by
  unfold delimByte at h
  split at h
  · split at h
    · cases h; exact ⟨_, rfl⟩
    · next t ht => cases h; exact ⟨[], by simp [tokenEvent_txq ht]⟩
  · cases h; exact ⟨[], by simp⟩

theorem lfByte_txq {s u : State} (h : lfByte s = .next u) : ∃ new, u.txq = s.txq ++ new := by
  unfold lfByte at h
  split at h
  · split at h
    · cases h; exact ⟨_, rfl⟩
    · next t ht => rw [← tokenEvent_txq ht]; exact lineEvent_txq h
  · exact lineEvent_txq h

theorem byteStep_txq {c : Byte} {s u : State} (h : byteStep c s = .next u) : ∃ new, u.txq = s.txq ++ new := by
  obtain ⟨-, rfl⟩ | ⟨-, rfl⟩ | ⟨-, -, -, hdelim⟩ | ⟨-, -, -, hlf⟩ := byteStep_cases h
  · exact ⟨[], by simp⟩
  · exact ⟨[], by simp⟩
  · exact delimByte_txq hdelim
  · exact lfByte_txq hlf

/-- The block's part of a step appends to the queue and leaves the bytes taken alone. -/
theorem blockStep_txq {s u : State} (h : blockStep s = .next u) :
    (∃ new, u.txq = s.txq ++ new) ∧ u.host.taken = s.host.taken := by
  refine ⟨?_, ?_⟩
  · obtain ⟨-, -, rfl⟩ | ⟨-, c, -, hbyte⟩ | ⟨-, i, -, hexec⟩ := blockStep_cases h
    · exact ⟨[], by simp⟩
    · exact byteStep_txq (s := s.acceptByte) hbyte
    · exact exec_txq hexec
  · rw [blockStep_host h]
    split <;> rfl

/-- The queue's move takes the byte that was first when the step began (R39, log 22). -/
theorem moveQueue_txq {s u : State} {new : List Byte} (hnew : u.txq = s.txq ++ new) :
    (State.moveQueue s u).txq = (if s.portsNow.txReady then s.txq.tail else s.txq) ++ new ∧
    (State.moveQueue s u).host.taken =
      u.host.taken ++ (if s.portsNow.txReady then s.txq.head?.toList else []) := by
  unfold State.moveQueue State.txTaken State.txValid
  cases hq : s.txq with
  | nil => simp [hnew, hq]
  | cons b bs => cases s.portsNow.txReady <;> simp [hnew, hq]

/-- Settles O5: the block's part of a step appends, and the queue's move takes the byte that was first before it. -/
theorem outputQueue : Obligations.OutputQueue := by
  refine ⟨fun _ _ => rfl, fun s => ⟨by simp [State.txValid], rfl⟩, rfl, fun s t hrst hstep => ?_⟩
  obtain ⟨hreset, -⟩ | ⟨-, u, c, hblock, -, rfl⟩ := step_cases hstep
  · simp [hrst] at hreset
  · obtain ⟨⟨new, hnew⟩, htaken⟩ := blockStep_txq hblock
    obtain ⟨htxq, hmoved⟩ := moveQueue_txq hnew
    exact ⟨new, htxq, hmoved.trans (by rw [htaken])⟩

/-! ### A step with the engine idle -/

theorem lineEvent_eng {s u : State} (hidle : s.eng.point = .idle) (h : lineEvent s = .next u) :
    u.eng = { s.eng with point := u.eng.point } := by
  obtain ⟨-, rfl⟩ | ⟨-, rfl⟩ | ⟨-, row, i, -, -, hexec⟩ := lineEvent_cases h
  · rfl
  · rfl
  · rw [exec_of_idle i hidle] at hexec
    cases hexec
    rfl

theorem delimByte_eng {s u : State} (h : delimByte s = .next u) : u.eng = s.eng := by
  unfold delimByte at h
  split at h
  · split at h
    · cases h; rfl
    · next t ht =>
      obtain ⟨heng, -⟩ := tokenEvent_eng_bus ht
      cases h; exact heng
  · cases h; rfl

theorem lfByte_eng {s u : State} (hidle : s.eng.point = .idle) (h : lfByte s = .next u) :
    u.eng = { s.eng with point := u.eng.point } := by
  unfold lfByte at h
  split at h
  · split at h
    · cases h; rfl
    · next t ht =>
      obtain ⟨heng, -⟩ := tokenEvent_eng_bus ht
      rw [← heng] at hidle ⊢
      exact lineEvent_eng hidle h
  · exact lineEvent_eng hidle h

/-- With the engine idle a byte step writes no engine register but the point, at the start of a command. -/
theorem byteStep_eng {c : Byte} {s u : State} (hidle : s.eng.point = .idle) (h : byteStep c s = .next u) :
    u.eng = { s.eng with point := u.eng.point } := by
  obtain ⟨-, rfl⟩ | ⟨-, rfl⟩ | ⟨-, -, -, hdelim⟩ | ⟨-, -, -, hlf⟩ := byteStep_cases h
  · simp
  · rfl
  · rw [delimByte_eng hdelim]
  · exact lfByte_eng hidle hlf

/-- Settles O52: with the engine idle the block's part of a step is at most a byte step, which touches no output, so the
chip sees no change. -/
theorem frameOfByteSteps : Obligations.FrameOfByteSteps := by
  intro s t hidle hrst hstep
  obtain ⟨hreset, -⟩ | ⟨-, u, c, hblock, hobserve, rfl⟩ := step_cases hstep
  · simp [hrst] at hreset
  obtain ⟨draws, hchip⟩ := blockStep_chip hblock
  have hbus : u.bus = s.bus := by
    obtain ⟨-, -, rfl⟩ | ⟨-, c, -, hbyte⟩ | ⟨hrun, -⟩ := blockStep_cases hblock
    · rfl
    · exact byteStep_bus (s := s.acceptByte) hidle hbyte
    · exact absurd hidle hrun
  have heng : u.eng = { s.eng with point := u.eng.point } := by
    obtain ⟨-, -, rfl⟩ | ⟨-, c, -, hbyte⟩ | ⟨hrun, -⟩ := blockStep_cases hblock
    · rfl
    · exact byteStep_eng (s := s.acceptByte) hidle hbyte
    · exact absurd hidle hrun
  rw [hbus, observe_same] at hobserve
  cases hobserve
  refine ⟨by simpa using hbus, by simp [hchip], by simp [hchip], by simpa using heng, fun hnone => ?_⟩
  obtain ⟨-, -, rfl⟩ | ⟨-, c, hsome, -⟩ | ⟨hrun, -⟩ := blockStep_cases hblock
  · simp
  · simp [hnone] at hsome
  · exact absurd hidle hrun

end Sys2Proof.Machine

/-! SUPPORT. The invariant over the lines of the commands (42_programming_engine.md R126 to R139): with the engine at a line, the
outputs, the chip's stage and the timer stand as the line before has left them, and each line takes them on to the next one. -/

namespace Sys2Proof.Machine

/-! ### The engine at a line, as a fact about its registers, the outputs and the chip -/

/-- `EngineOk` with the point, the engine, the outputs, the stage and the count of cycles as arguments. -/
structure EngineAt (i : Instr) (p : Point) (e : Engine) (b : Bus) (stage : Stage) (held : Nat) : Prop where
  point : p ∈ pointsOf i
  supply : b.supply = p.supplyAt
  enable : b.en = p.enableAt
  stage : stage = p.stageAt
  line : b.progSel = if p.stageAt = .quiet then 0x00#8 else onehot8 e.bit.toNat
  profile : p.profileSet = true → i ≠ .version → b.chipSel = profileOf i
  cell : p.addressSet = true → b.abus = cellOf i e.scanA
  scan : scans i = true → p.addressSet = true → e.scanA.toNat < cellCount (profileOf i)
  bit : p.resolvesBit = true → e.bit.toNat < 8 ∧ e.existing.getLsbD e.bit.toNat = false ∧
    e.target.getLsbD e.bit.toNat = true
  mode : p.modeSet = true → e.real = programs i
  timer : p.delay = none → e.tmr = 0#32
  wait : ∀ n, p.delay = some n → n ≤ held + e.tmr.toNat ∧ (p ≠ .readSample → held + e.tmr.toNat = n)

theorem engineOk_iff {i : Instr} {s : State} :
    EngineOk i s ↔ EngineAt i s.eng.point s.eng s.bus s.chip.stage s.chip.held :=
  ⟨fun h => ⟨h.point, h.supply, h.enable, h.stage, h.line, h.profile, h.cell, h.scan, h.bit, h.mode, h.timer, h.wait⟩,
    fun h => ⟨h.point, h.supply, h.enable, h.stage, h.line, h.profile, h.cell, h.scan, h.bit, h.mode, h.timer, h.wait⟩⟩

theorem EngineOk.engineAt {i : Instr} {s : State} {p : Point} (h : EngineOk i s) (hp : s.eng.point = p) :
    EngineAt i p s.eng s.bus s.chip.stage s.chip.held := hp ▸ engineOk_iff.mp h

section
variable {i : Instr} {p q : Point} {e e' : Engine} {b b' : Bus} {c c' : Chip} {g : Stage} {n held : Nat}

/-! ### The points of the commands -/

theorem mem_pointsOf_of_ne_version (h : i ≠ .version) :
    ∀ q ∈ [Point.selectChip, .powerOn, .pathOn, .readSample, .powerOff, .respond], q ∈ pointsOf i := by
  cases i with
  | version => exact absurd rfl h
  | _ => simp [pointsOf]

theorem mem_pointsOf_of_burns (h : burns i = true) :
    ∀ q ∈ [Point.pathOff, .setTarget, .copyExisting, .burnTest, .bitNext], q ∈ pointsOf i := by
  cases i with
  | program => simp [pointsOf]
  | simulate => simp [pointsOf]
  | _ => cases h

/-- The pulse and the verify are lines of `w` alone (R138). -/
theorem resolvesBit_iff (h : burns i = true) (hp : p.resolvesBit = true) : p ∈ pointsOf i ↔ programs i = true := by
  cases i with
  | program => cases p <;> simp_all [pointsOf, programs, Point.resolvesBit]
  | simulate => cases p <;> simp_all [pointsOf, programs, Point.resolvesBit]
  | _ => cases h

theorem EngineAt.next_resolves (h : EngineAt i p e b g held) (hburn : burns i = true) (hp : p.resolvesBit = true)
    (hq : q.resolvesBit = true) : q ∈ pointsOf i :=
  (resolvesBit_iff hburn hq).mpr ((resolvesBit_iff hburn hp).mp h.point)

theorem afterPath_spec (h : i ≠ .version) :
    afterPath i ∈ pointsOf i ∧ (afterPath i = .scanFirst ∨ afterPath i = .scanZero ∨ afterPath i = .readAddr) := by
  cases i with
  | version => exact absurd rfl h
  | _ => simp [afterPath, pointsOf]

theorem afterRead_spec (h : i ≠ .version) (hburn : burns i = false) :
    afterRead i ∈ pointsOf i ∧ (afterRead i = .scanEmit ∨ afterRead i = .blankTest ∨ afterRead i = .powerDown) := by
  cases i with
  | version => exact absurd rfl h
  | program => cases hburn
  | simulate => cases hburn
  | _ => simp [afterRead, pointsOf]

theorem downFrom_spec (h : p ∈ downFrom i) : p.supplyAt = .nominal ∧ p.stageAt = .quiet ∧ p.profileSet = true := by
  revert h
  cases i <;> simp +contextual [downFrom, or_imp, Point.supplyAt, Point.stageAt, Point.profileSet]

/-! ### Waits and the chip's stage -/

/-- A timer just loaded, the outputs having just changed or stood for longer (R127). -/
theorem wait_loaded (hn : 1 ≤ n) (hlt : n - 1 < 2 ^ 32) (hheld : 1 ≤ held) (hp : p ≠ .readSample → held = 1) :
    n ≤ held + (BitVec.ofNat 32 (n - 1)).toNat ∧ (p ≠ .readSample → held + (BitVec.ofNat 32 (n - 1)).toNat = n) := by
  rw [BitVec.toNat_ofNat, Nat.mod_eq_of_lt hlt]
  exact ⟨by omega, fun h => by rw [hp h]; omega⟩

theorem EngineAt.outside (h : EngineAt i p e b g held) (hp : p.stageAt = .quiet) : b.outsideSequence = true := by
  have hline := h.line
  have hsupply := h.supply
  rw [if_pos hp] at hline
  have hlevel : p.supplyAt ≠ .program := by
    revert hp
    cases p <;> simp [Point.stageAt, Point.supplyAt]
  simp [Bus.outsideSequence, hline, hsupply, hlevel]

/-- A line outside a programming sequence that does not start one: the chip counts its cycles, from 1 on where the outputs
have changed. -/
theorem EngineAt.observe_quiet (hc : c.stage = .quiet) (hq : q.stageAt = .quiet)
    (h : ∀ held, 1 ≤ held → (b' ≠ b → held = 1) → EngineAt i q e' b' .quiet held) :
    ∃ c', c.observe b b' = .ok c' ∧ EngineAt i q e' b' c'.stage c'.held := by
  have hout : b'.outsideSequence = true := (h 1 le_rfl fun _ => rfl).outside hq
  refine ⟨_, observe_quiet_eq hc hout, ?_⟩
  dsimp only
  rw [hc]
  split
  · next hsame => exact h _ (Nat.le_add_left 1 _) fun hne => absurd hsame hne
  · exact h 1 le_rfl fun _ => rfl

theorem setSupply_ne {v : Supply} (h : b.supply ≠ v) : { b with supply := v } ≠ b := fun hsame =>
  h (congrArg Bus.supply hsame).symm

theorem setEn_ne {v : Bool} (h : b.en ≠ v) : { b with en := v } ≠ b := fun hsame => h (congrArg Bus.en hsame).symm

theorem setProgSel_ne {v : Byte} (h : b.progSel ≠ v) : { b with progSel := v } ≠ b := fun hsame =>
  h (congrArg Bus.progSel hsame).symm

/-- When the wait before a line is over, the outputs have stood for its interval (R127). -/
theorem EngineAt.held_eq (h : EngineAt i p e b g held) (hdelay : p.delay = some n) (hp : p ≠ .readSample)
    (htmr : e.tmr = 0#32) : held = n := by
  obtain ⟨-, heq⟩ := h.wait n hdelay
  have := heq hp
  rwa [htmr, BitVec.toNat_zero, Nat.add_zero] at this

/-- A line of a programming sequence: the chip goes on to the next stage (R135). -/
theorem EngineAt.observe_stage (hne : b' ≠ b) (hc : c.stage ≠ .quiet)
    (hallows : c.stage.allows c.held b b' = true) (hadvance : c.advance b b' = .ok c') (hheld : c'.held = 1)
    (hstage : c'.stage = g) (h : EngineAt i q e' b' g 1) :
    ∃ c', c.observe b b' = .ok c' ∧ EngineAt i q e' b' c'.stage c'.held :=
  ⟨c', (observe_advance hne (fun hq => hc hq.1) hallows).trans hadvance, by rw [hheld, hstage]; exact h⟩

end

theorem nPwrup_pos : 1 ≤ Config.nPwrup := Nat.le_add_left 1 _
theorem nRead_pos : 1 ≤ Config.nRead := Nat.le_add_left 1 _
theorem nSettle_pos : 1 ≤ Config.nSettle := Nat.le_add_left 1 _
theorem nCool_pos : 1 ≤ Config.nCool := Nat.le_add_left 1 _
theorem nPulse_pos : 1 ≤ Config.nPulse := by
  have := one_add_nPulse_sub_one
  omega

/-! ### Each line -/

/-- After the line the chip allows what it sees, and the engine is at the next line with everything as that line expects. -/
def State.goesOn (i : Instr) (s u : State) : Prop :=
  ∃ c, u.chip.observe s.bus u.bus = .ok c ∧ EngineAt i u.eng.point u.eng u.bus c.stage c.held

section
variable {i : Instr} {s u : State}

theorem answer_stage {c c' : Chip} {bus : Bus} {b : Byte} (h : c.answer bus = .ok (b, c')) : c'.stage = c.stage := by
  obtain ⟨draws, rfl⟩ := answer_sameButDraws h
  rfl

/-- The loop of `R` at a cell that exists: the cell is read. -/
theorem goesOn_cell {chip : Profile} {a : BitVec 10} {p : Point} (hok : EngineOk (.readAll chip) s)
    (hp : s.eng.point = p) (hpoint : p = .scanFirst ∨ p = .scanNext) (ha : a.toNat < cellCount chip) :
    State.goesOn (.readAll chip) s ((s.setScan a).readAt (a.truncate 9)) := by
  have h := hok.engineAt hp
  obtain rfl | rfl := hpoint <;>
  exact EngineAt.observe_quiet h.stage rfl fun held h1 _ =>
    { point := by simp [pointsOf], supply := h.supply, enable := h.enable, stage := rfl, line := h.line
      profile := fun _ => h.profile rfl, cell := fun _ => rfl, scan := fun _ _ => ha, bit := nofun, mode := nofun
      timer := nofun
      wait := fun n hn => by cases hn; exact wait_loaded nRead_pos nRead_sub_one_lt h1 (absurd rfl) }

/-- The first line of `PowerDown`, from whichever line comes to it. -/
theorem goesOn_powerDown {p : Point} {e : Engine} (hi : i ≠ .version) (hok : EngineOk i s) (hp : s.eng.point = p)
    (hsupply : p.supplyAt = .nominal) (hquiet : p.stageAt = .quiet) (hset : p.profileSet = true) (htmr : e.tmr = 0#32) :
    State.goesOn i s (State.powerDown { s with eng := e }) := by
  have h := hok.engineAt hp
  exact EngineAt.observe_quiet (h.stage.trans hquiet) rfl fun held _ _ =>
    { point := mem_pointsOf_of_ne_version hi _ (by simp), supply := h.supply.trans hsupply, enable := rfl, stage := rfl
      line := rfl, profile := fun _ => h.profile hset, cell := nofun, scan := fun _ => nofun, bit := nofun, mode := nofun
      timer := fun _ => htmr, wait := nofun }

/-- A burnable bit in simulate mode is recorded at once. -/
theorem goesOn_simulated {p : Point} {k : Nat} (hburn : burns i = true) (hok : EngineOk i s) (htmr : s.eng.tmr = 0#32)
    (hp : s.eng.point = p) (hpoint : p = .burnTest ∨ p = .bitNext) :
    State.goesOn i s ((s.setBit k).recordBit k) := by
  have h := hok.engineAt hp
  obtain rfl | rfl := hpoint <;>
  exact EngineAt.observe_quiet h.stage rfl fun held _ _ =>
    { point := mem_pointsOf_of_burns hburn _ (by simp), supply := h.supply, enable := h.enable, stage := rfl
      line := h.line, profile := fun _ => h.profile rfl, cell := fun _ => h.cell rfl, scan := fun hs _ => h.scan hs rfl
      bit := nofun, mode := fun _ => h.mode rfl, timer := fun _ => htmr, wait := nofun }

/-- The first line of a pulse: with a chip of the selected profile a programming sequence begins, and without one the chip
stops (R135, 20_memory.md R61). -/
theorem goesOn_selectLine {p : Point} {k : Nat} (hburn : burns i = true) (hok : EngineOk i s) (htmr : s.eng.tmr = 0#32)
    (hp : s.eng.point = p) (hpoint : p = .burnTest ∨ p = .bitNext) (hreal : s.eng.real = true) (hk : s.eng.finds k)
    (haddr : addrInRange s.bus.chipSel s.bus.abus = true) :
    programs i = true ∧
    if s.chip.socket.matches s.bus.chipSel then State.goesOn i s ((s.setBit k).selectLine k)
    else s.chip.observe s.bus ((s.setBit k).selectLine k).bus = .error .programmingUnspecified := by
  have h := hok.engineAt hp
  have hbit : (BitVec.ofNat 4 k).toNat = k := toNat_bit hk.lt.le
  have hmode : programs i = true := by obtain rfl | rfl := hpoint <;> exact (h.mode rfl).symm.trans hreal
  have hpoints : Point.burnRaise ∈ pointsOf i := (resolvesBit_iff hburn rfl).mpr hmode
  have hquiet : s.chip.stage = .quiet := by obtain rfl | rfl := hpoint <;> exact h.stage
  have hsupply : s.bus.supply = .nominal := by obtain rfl | rfl := hpoint <;> exact h.supply
  have hen : s.bus.en = false := by obtain rfl | rfl := hpoint <;> exact h.enable
  have hsel : s.bus.progSel = 0x00#8 := by obtain rfl | rfl := hpoint <;> exact h.line
  have hcell : s.bus.abus = cellOf i s.eng.scanA := by obtain rfl | rfl := hpoint <;> exact h.cell rfl
  have hprofile : i ≠ .version → s.bus.chipSel = profileOf i := by obtain rfl | rfl := hpoint <;> exact h.profile rfl
  have hline : drivesLine s.bus ((s.setBit k).selectLine k).bus = true := by
    simp [drivesLine, isOnehot_onehot8 k hk.lt, hsupply, hen, hsel, State.selectLine, State.setProgSel, State.setBit,
      State.goto]
  refine ⟨hmode, ?_⟩
  have hobserve := observe_drivesLine hquiet hline
  split
  · next hmatch =>
    refine ⟨_, hobserve.trans (beginSequence_eq haddr hmatch), ?_⟩
    exact { point := hpoints, supply := hsupply, enable := hen, stage := rfl, line := congrArg onehot8 hbit.symm
            profile := fun _ => hprofile, cell := fun _ => hcell
            scan := fun hs => by cases i <;> simp_all [scans, programs]
            bit := fun _ => by
              show (BitVec.ofNat 4 k).toNat < 8 ∧ s.eng.existing.getLsbD (BitVec.ofNat 4 k).toNat = false ∧
                s.eng.target.getLsbD (BitVec.ofNat 4 k).toNat = true
              rw [hbit]
              exact ⟨hk.lt, hk.unset, hk.wanted⟩
            mode := fun _ => hreal.trans hmode.symm, timer := fun _ => htmr, wait := nofun }
  · next hmismatch =>
    exact hobserve.trans (beginSequence_of_mismatch haddr (by simpa using hmismatch))

/-- `supply <- Program`, of a pulse (R135). -/
theorem goesOn_raise (hburn : burns i = true) (hok : EngineOk i s) (hp : s.eng.point = .burnRaise) :
    State.goesOn i s (((s.setSupply .program).wait Config.nSettle).goto .burnEnable) := by
  have h := hok.engineAt hp
  have hstage : s.chip.stage = .selected := h.stage
  refine EngineAt.observe_stage (c := s.chip) (c' := s.chip.toStage .settling) (setSupply_ne (h.supply ▸ nofun)) (hstage ▸ nofun)
    (hstage ▸ decide_eq_true rfl) (by rw [Chip.advance, hstage]) rfl rfl ?_
  exact { point := h.next_resolves hburn rfl rfl, supply := rfl, enable := h.enable, stage := rfl, line := h.line
          profile := fun _ => h.profile rfl, cell := fun _ => h.cell rfl, scan := fun hs _ => h.scan hs rfl
          bit := fun _ => h.bit rfl, mode := fun _ => h.mode rfl, timer := nofun
          wait := fun n hn => by cases hn; exact wait_loaded nSettle_pos nSettle_sub_one_lt le_rfl fun _ => rfl }

/-- `en <- 1`, of a pulse, after exactly `N_SETTLE` cycles (R135). -/
theorem goesOn_enable (hburn : burns i = true) (hok : EngineOk i s) (htmr : s.eng.tmr = 0#32)
    (hp : s.eng.point = .burnEnable) :
    State.goesOn i s (((s.setEn true).wait Config.nPulse).goto .burnDisable) := by
  have h := hok.engineAt hp
  have hstage : s.chip.stage = .settling := h.stage
  have hheld : s.chip.held = Config.nSettle := h.held_eq rfl nofun htmr
  refine EngineAt.observe_stage (c := s.chip) (c' := s.chip.toStage .pulsing) (setEn_ne (h.enable ▸ nofun)) (hstage ▸ nofun)
    ?_ (by rw [Chip.advance, hstage]) rfl rfl ?_
  · rw [hstage, hheld]
    simp [Stage.allows, State.setEn, State.wait, State.goto]
  exact { point := h.next_resolves hburn rfl rfl, supply := h.supply, enable := rfl, stage := rfl, line := h.line
          profile := fun _ => h.profile rfl, cell := fun _ => h.cell rfl, scan := fun hs _ => h.scan hs rfl
          bit := fun _ => h.bit rfl, mode := fun _ => h.mode rfl, timer := nofun
          wait := fun n hn => by cases hn; exact wait_loaded nPulse_pos nPulse_sub_one_lt le_rfl fun _ => rfl }

/-- `en <- 0`, of a pulse, after exactly `N_PULSE` cycles (R135). -/
theorem goesOn_disable (hburn : burns i = true) (hok : EngineOk i s) (htmr : s.eng.tmr = 0#32)
    (hp : s.eng.point = .burnDisable) : State.goesOn i s ((s.setEn false).goto .burnDrop) := by
  have h := hok.engineAt hp
  have hstage : s.chip.stage = .pulsing := h.stage
  have hheld : s.chip.held = Config.nPulse := h.held_eq rfl nofun htmr
  refine EngineAt.observe_stage (c := s.chip) (c' := s.chip.toStage .pulsed) (setEn_ne (h.enable ▸ nofun)) (hstage ▸ nofun)
    ?_ (by rw [Chip.advance, hstage]) rfl rfl ?_
  · rw [hstage, hheld]
    simp [Stage.allows, State.setEn, State.goto]
  exact { point := h.next_resolves hburn rfl rfl, supply := h.supply, enable := rfl, stage := rfl, line := h.line
          profile := fun _ => h.profile rfl, cell := fun _ => h.cell rfl, scan := fun hs _ => h.scan hs rfl
          bit := fun _ => h.bit rfl, mode := fun _ => h.mode rfl, timer := fun _ => htmr, wait := nofun }

/-- `supply <- Nominal`, of a pulse (R135). -/
theorem goesOn_drop (hburn : burns i = true) (hok : EngineOk i s) (htmr : s.eng.tmr = 0#32)
    (hp : s.eng.point = .burnDrop) : State.goesOn i s ((s.setSupply .nominal).goto .burnRelease) := by
  have h := hok.engineAt hp
  have hstage : s.chip.stage = .pulsed := h.stage
  refine EngineAt.observe_stage (c := s.chip) (c' := s.chip.toStage .dropped) (setSupply_ne (h.supply ▸ nofun)) (hstage ▸ nofun)
    (hstage ▸ decide_eq_true rfl) (by rw [Chip.advance, hstage]) rfl rfl ?_
  exact { point := h.next_resolves hburn rfl rfl, supply := rfl, enable := h.enable, stage := rfl, line := h.line
          profile := fun _ => h.profile rfl, cell := fun _ => h.cell rfl, scan := fun hs _ => h.scan hs rfl
          bit := fun _ => h.bit rfl, mode := fun _ => h.mode rfl, timer := fun _ => htmr, wait := nofun }

/-- `prog_sel <- 0x00`, the end of the programming sequence, at which the chip burns (R135, 20_memory.md R51). -/
theorem goesOn_release (hburn : burns i = true) (hok : EngineOk i s) (htmr : s.eng.tmr = 0#32)
    (hp : s.eng.point = .burnRelease) : State.goesOn i s ((s.setProgSel 0x00#8).goto .verifyEnable) := by
  have h := hok.engineAt hp
  have hstage : s.chip.stage = .dropped := h.stage
  obtain ⟨hbit, -, -⟩ := h.bit rfl
  have hline : s.bus.progSel = onehot8 s.eng.bit.toNat := h.line
  refine EngineAt.observe_stage (c := s.chip) (c' := (s.chip.burn s.bus).toStage .quiet)
    (setProgSel_ne (hline ▸ onehot8_ne_zero _ hbit)) (hstage ▸ nofun) (hstage ▸ decide_eq_true rfl)
    (by rw [Chip.advance, hstage]) rfl rfl ?_
  exact { point := h.next_resolves hburn rfl rfl, supply := h.supply, enable := h.enable, stage := rfl, line := rfl
          profile := fun _ => h.profile rfl, cell := fun _ => h.cell rfl, scan := fun hs _ => h.scan hs rfl
          bit := fun _ => h.bit rfl, mode := fun _ => h.mode rfl, timer := fun _ => htmr, wait := nofun }

/-- What a line does in a state of the block: it is the last one, or it goes on, or it is the first line of a pulse of `w`
with no chip of the selected profile in the socket. -/
theorem Ran.goesOn (h : Ran i s u) (hok : EngineOk i s) (htmr : s.eng.tmr = 0#32)
    (haddr : addrInRange s.bus.chipSel s.bus.abus = true) :
    (s.eng.point = .respond ∧ u = s.finish (payloadOf i s.eng ++ okTrailer)) ∨ State.goesOn i s u ∨
    (s.eng.point ∈ [.burnTest, .bitNext] ∧ programs i = true ∧ s.chip.socket.matches s.bus.chipSel = false ∧
      u.chip.observe s.bus u.bus = .error .programmingUnspecified) := by
  cases h with
  | respond hp => exact .inl ⟨hp, rfl⟩
  | selectLine k hburn hp hreal hk =>
    right
    have hpoint : s.eng.point = .burnTest ∨ s.eng.point = .bitNext := by simpa using hp
    obtain ⟨hmode, hline⟩ := goesOn_selectLine hburn hok htmr rfl hpoint hreal hk haddr
    split at hline
    · exact .inl hline
    · next hmismatch => exact .inr ⟨hp, hmode, by simpa using hmismatch, hline⟩
  | cell a hi hp ha =>
    subst hi
    exact .inr (.inl (goesOn_cell hok rfl (by simpa using hp) ha))
  | lastCell a hi hp =>
    subst hi
    right; left
    obtain ⟨hp, -⟩ | ⟨hp, -⟩ := hp
    · exact goesOn_powerDown nofun hok hp rfl rfl rfl htmr
    · exact goesOn_powerDown nofun hok hp rfl rfl rfl htmr
  | powerDown hi hp =>
    obtain ⟨hsupply, hquiet, hset⟩ := downFrom_spec hp
    exact .inr (.inl (goesOn_powerDown hi hok rfl hsupply hquiet hset htmr))
  | loopEnd k hburn hp hk =>
    right; left
    have hpoint : s.eng.point = .burnTest ∨ s.eng.point = .bitNext := by simpa using hp
    obtain hp | hp := hpoint
    · exact goesOn_powerDown (ne_version_of_burns hburn) hok hp rfl rfl rfl htmr
    · exact goesOn_powerDown (ne_version_of_burns hburn) hok hp rfl rfl rfl htmr
  | simulated k hburn hp hk => exact .inr (.inl (goesOn_simulated hburn hok htmr rfl (by simpa using hp)))
  | count hi hp =>
    right; left
    have h := hok.engineAt hp
    have hne : i ≠ .version := by rintro rfl; cases hi
    exact EngineAt.observe_quiet h.stage rfl fun held _ _ =>
      { point := mem_pointsOf_of_ne_version hne _ (by simp), supply := h.supply, enable := h.enable, stage := rfl
        line := h.line, profile := nofun, cell := nofun, scan := fun _ => nofun, bit := nofun, mode := nofun
        timer := fun _ => htmr, wait := nofun }
  | select hi hp =>
    right; left
    have h := hok.engineAt hp
    exact EngineAt.observe_quiet h.stage rfl fun held _ _ =>
      { point := mem_pointsOf_of_ne_version hi _ (by simp), supply := h.supply, enable := rfl, stage := rfl, line := rfl
        profile := fun _ _ => rfl, cell := nofun, scan := fun _ => nofun, bit := nofun, mode := nofun
        timer := fun _ => htmr, wait := nofun }
  | powerOn hi hp =>
    right; left
    have h := hok.engineAt hp
    have hchange : s.powerOn.bus ≠ s.bus := setSupply_ne (h.supply ▸ nofun)
    exact EngineAt.observe_quiet h.stage rfl fun held h1 hone =>
      { point := mem_pointsOf_of_ne_version hi _ (by simp), supply := rfl, enable := h.enable, stage := rfl
        line := h.line, profile := fun _ => h.profile rfl, cell := nofun, scan := fun _ => nofun, bit := nofun
        mode := nofun, timer := nofun
        wait := fun n hn => by cases hn; exact wait_loaded nPwrup_pos nPwrup_sub_one_lt h1 fun _ => hone hchange }
  | path hi hp =>
    right; left
    have h := hok.engineAt hp
    obtain ⟨hmem, hq⟩ := afterPath_spec hi
    generalize afterPath i = q at hmem hq
    obtain rfl | rfl | rfl := hq <;>
    exact EngineAt.observe_quiet h.stage rfl fun held _ _ =>
      { point := hmem, supply := h.supply, enable := rfl, stage := rfl, line := h.line
        profile := fun _ => h.profile rfl, cell := nofun, scan := fun _ => nofun, bit := nofun, mode := nofun
        timer := fun _ => htmr, wait := nofun }
  | address hi hscan hp =>
    right; left
    have h := hok.engineAt hp
    exact EngineAt.observe_quiet h.stage rfl fun held h1 _ =>
      { point := mem_pointsOf_of_ne_version hi _ (by simp), supply := h.supply, enable := h.enable, stage := rfl
        line := h.line, profile := fun _ => h.profile rfl, cell := fun _ => rfl
        scan := fun hs => by simp [hscan] at hs
        bit := nofun, mode := nofun, timer := nofun
        wait := fun n hn => by cases hn; exact wait_loaded nRead_pos nRead_sub_one_lt h1 (absurd rfl) }
  | read hi hburn hp hc =>
    right; left
    have h := hok.engineAt hp
    have hstage := (answer_stage hc).trans h.stage
    obtain ⟨hmem, hq⟩ := afterRead_spec hi hburn
    generalize afterRead i = q at hmem hq
    obtain rfl | rfl | rfl := hq <;>
    exact EngineAt.observe_quiet hstage rfl fun held _ _ =>
      { point := hmem, supply := h.supply, enable := h.enable, stage := rfl, line := h.line
        profile := fun _ => h.profile rfl, cell := fun _ => h.cell rfl, scan := fun hs _ => h.scan hs rfl, bit := nofun
        mode := nofun, timer := fun _ => htmr, wait := nofun }
  | readExisting hburn hp hc =>
    right; left
    have h := hok.engineAt hp
    have hstage := (answer_stage hc).trans h.stage
    exact EngineAt.observe_quiet hstage rfl fun held _ _ =>
      { point := mem_pointsOf_of_burns hburn _ (by simp), supply := h.supply, enable := h.enable, stage := rfl
        line := h.line, profile := fun _ => h.profile rfl, cell := fun _ => h.cell rfl
        scan := fun hs _ => h.scan hs rfl, bit := nofun, mode := nofun, timer := fun _ => htmr, wait := nofun }
  | emit hi hp =>
    right; left
    have h := hok.engineAt hp
    exact EngineAt.observe_quiet h.stage rfl fun held _ _ =>
      { point := by rw [hi]; simp [pointsOf], supply := h.supply, enable := h.enable, stage := rfl, line := h.line
        profile := fun _ => h.profile rfl, cell := fun _ => h.cell rfl, scan := fun hs _ => h.scan hs rfl, bit := nofun
        mode := nofun, timer := fun _ => htmr, wait := nofun }
  | scanZero hi hp =>
    right; left
    have h := hok.engineAt hp
    exact EngineAt.observe_quiet h.stage rfl fun held _ _ =>
      { point := by rw [hi]; simp [pointsOf], supply := h.supply, enable := h.enable, stage := rfl, line := h.line
        profile := fun _ => h.profile rfl, cell := nofun, scan := fun _ => nofun, bit := nofun, mode := nofun
        timer := fun _ => htmr, wait := nofun }
  | blankCell hi hp ha =>
    subst hi
    right; left
    have h := hok.engineAt hp
    exact EngineAt.observe_quiet h.stage rfl fun held h1 _ =>
      { point := by simp [pointsOf], supply := h.supply, enable := h.enable, stage := rfl, line := h.line
        profile := fun _ => h.profile rfl, cell := fun _ => rfl, scan := fun _ _ => ha, bit := nofun, mode := nofun
        timer := nofun
        wait := fun n hn => by cases hn; exact wait_loaded nRead_pos nRead_sub_one_lt h1 (absurd rfl) }
  | blank hi hp =>
    right; left
    have h := hok.engineAt hp
    exact EngineAt.observe_quiet h.stage rfl fun held _ _ =>
      { point := by rw [hi]; simp [pointsOf], supply := h.supply, enable := h.enable, stage := rfl, line := h.line
        profile := fun _ => h.profile rfl, cell := nofun, scan := fun _ => nofun, bit := nofun, mode := nofun
        timer := fun _ => htmr, wait := nofun }
  | powerOff hi hp =>
    right; left
    have h := hok.engineAt hp
    exact EngineAt.observe_quiet h.stage rfl fun held _ _ =>
      { point := mem_pointsOf_of_ne_version hi _ (by simp), supply := rfl, enable := h.enable, stage := rfl
        line := h.line, profile := fun _ => h.profile rfl, cell := nofun, scan := fun _ => nofun, bit := nofun
        mode := nofun, timer := fun _ => htmr, wait := nofun }
  | pathOff hburn hp =>
    right; left
    have h := hok.engineAt hp
    exact EngineAt.observe_quiet h.stage rfl fun held _ _ =>
      { point := mem_pointsOf_of_burns hburn _ (by simp), supply := h.supply, enable := rfl, stage := rfl
        line := h.line, profile := fun _ => h.profile rfl, cell := fun _ => h.cell rfl
        scan := fun hs _ => h.scan hs rfl, bit := nofun, mode := nofun, timer := fun _ => htmr, wait := nofun }
  | target hburn hp =>
    right; left
    have h := hok.engineAt hp
    exact EngineAt.observe_quiet h.stage rfl fun held _ _ =>
      { point := mem_pointsOf_of_burns hburn _ (by simp), supply := h.supply, enable := h.enable, stage := rfl
        line := h.line, profile := fun _ => h.profile rfl, cell := fun _ => h.cell rfl
        scan := fun hs _ => h.scan hs rfl, bit := nofun, mode := fun _ => rfl, timer := fun _ => htmr, wait := nofun }
  | copy hburn hp =>
    right; left
    have h := hok.engineAt hp
    exact EngineAt.observe_quiet h.stage rfl fun held _ _ =>
      { point := mem_pointsOf_of_burns hburn _ (by simp), supply := h.supply, enable := h.enable, stage := rfl
        line := h.line, profile := fun _ => h.profile rfl, cell := fun _ => h.cell rfl
        scan := fun hs _ => h.scan hs rfl, bit := nofun, mode := fun _ => h.mode rfl, timer := fun _ => htmr
        wait := nofun }
  | raise hburn hp => exact .inr (.inl (goesOn_raise hburn hok hp))
  | enable hburn hp => exact .inr (.inl (goesOn_enable hburn hok htmr hp))
  | disable hburn hp => exact .inr (.inl (goesOn_disable hburn hok htmr hp))
  | drop hburn hp => exact .inr (.inl (goesOn_drop hburn hok htmr hp))
  | release hburn hp => exact .inr (.inl (goesOn_release hburn hok htmr hp))
  | verify hburn hp =>
    right; left
    have h := hok.engineAt hp
    have hchange : { s.bus with en := true } ≠ s.bus := setEn_ne (h.enable ▸ nofun)
    exact EngineAt.observe_quiet h.stage rfl fun held h1 hone =>
      { point := h.next_resolves hburn rfl rfl, supply := h.supply, enable := rfl, stage := rfl, line := h.line
        profile := fun _ => h.profile rfl, cell := fun _ => h.cell rfl, scan := fun hs _ => h.scan hs rfl
        bit := fun _ => h.bit rfl, mode := fun _ => h.mode rfl, timer := nofun
        wait := fun n hn => by cases hn; exact wait_loaded nRead_pos nRead_sub_one_lt h1 fun _ => hone hchange }
  | verified hburn hp hc =>
    right; left
    have h := hok.engineAt hp
    have hstage := (answer_stage hc).trans h.stage
    have hchange : { s.bus with en := false } ≠ s.bus := setEn_ne (h.enable ▸ nofun)
    exact EngineAt.observe_quiet hstage rfl fun held h1 hone =>
      { point := h.next_resolves hburn rfl rfl, supply := h.supply, enable := rfl, stage := rfl, line := h.line
        profile := fun _ => h.profile rfl, cell := fun _ => h.cell rfl, scan := fun hs _ => h.scan hs rfl
        bit := fun _ => h.bit rfl, mode := fun _ => h.mode rfl, timer := nofun
        wait := fun n hn => by cases hn; exact wait_loaded nCool_pos nCool_sub_one_lt h1 fun _ => hone hchange }
  | record hburn hp =>
    right; left
    have h := hok.engineAt hp
    exact EngineAt.observe_quiet h.stage rfl fun held _ _ =>
      { point := mem_pointsOf_of_burns hburn _ (by simp), supply := h.supply, enable := h.enable, stage := rfl
        line := h.line, profile := fun _ => h.profile rfl, cell := fun _ => h.cell rfl
        scan := fun hs _ => h.scan hs rfl, bit := nofun, mode := fun _ => h.mode rfl, timer := fun _ => htmr
        wait := nofun }

end

end Sys2Proof.Machine

/-! SUPPORT. Every step keeps the invariant (10_state.md R26, R30, R31, R35, R38): the interpreter's part, byte by byte, and the
engine's part, line by line. -/

namespace Sys2Proof.Machine

/-! ### The interpreter's part of the invariant -/

/-- What the invariant says of the interpreter: `st`, the Command register, the lexer and `discard`. -/
structure State.parses (s : State) : Prop where
  protocol : s.st.reserved = false
  lexer : s.lex.inTok = false → s.lex = clearedLexer
  token : s.lex.inTok = true → s.lex.tokLen ≠ 0#2
  ready : s.st = .ready → s.command = emptyCommand
  discarding : s.discard = true → s.st = .ready ∧ s.lex.inTok = false
  bounds : s.st = .waitValue ∨ s.st = .executing → ∀ i, s.command.live = some i → i.wellFormed = true
  executing : s.st = .executing → s.command.live ≠ none

theorem Inv.parses {s : State} (h : Inv s) : s.parses :=
  ⟨h.protocol, h.lexer, h.token, h.ready, h.discarding, h.bounds, h.executing⟩

theorem parses_of_ready {s : State} (hready : s.st = .ready) (hempty : s.command = emptyCommand)
    (hlex : s.lex = clearedLexer) : s.parses where
  protocol := by rw [hready]; rfl
  lexer := fun _ => hlex
  token := fun htok => by rw [hlex] at htok; cases htok
  ready := fun _ => hempty
  discarding := fun _ => ⟨hready, by rw [hlex]; rfl⟩
  bounds := fun hst => by simp [hready] at hst
  executing := fun hst => by simp [hready] at hst

/-- The invariant of a state with the engine idle, from one whose engine, outputs and cells it has. -/
theorem Inv.of_idle {s t : State} (hinv : Inv s) (hidle : s.eng.point = .idle) (hparses : t.parses) (heng : t.eng = s.eng)
    (hbus : t.bus = s.bus) (hcells : t.chip.cells = s.chip.cells) (hstage : t.chip.stage = s.chip.stage)
    (hbusy : t.busy = !t.txq.isEmpty) : Inv t where
  cells := hcells ▸ hinv.cells
  address := hbus ▸ hinv.address
  protocol := hparses.protocol
  lexer := hparses.lexer
  token := hparses.token
  ready := hparses.ready
  discarding := hparses.discarding
  bounds := hparses.bounds
  executing := hparses.executing
  idle := fun _ => by rw [hbus, hstage, heng]; exact hinv.idle hidle
  counters := heng ▸ hinv.counters
  busy := by rw [hbusy, State.engineIdle, heng, hidle]; simp
  running := fun hrun => absurd (heng ▸ hidle) hrun

theorem Inv.busy_of_idle {s : State} (hinv : Inv s) (hidle : s.eng.point = .idle) : s.busy = !s.txq.isEmpty := by
  rw [hinv.busy, State.engineIdle, hidle]
  simp

/-- The invariant of a state in which the engine runs. -/
theorem inv_of_running {t : State} {i : Instr} (hst : t.st = .executing) (hlive : t.command.live = some i)
    (hwf : i.wellFormed = true) (hlex : t.lex = clearedLexer) (hkeeps : t.discard = false) (hcause : t.errCause = .none)
    (hbusy : t.busy = true) (hrun : t.eng.point ≠ .idle) (hcells : t.chip.cells.wf = true)
    (haddr : addrInRange t.bus.chipSel t.bus.abus = true) (hcount : t.eng.bit.toNat ≤ 8 ∧ t.eng.scanA.toNat ≤ 512)
    (hok : EngineOk i t) : Inv t where
  cells := hcells
  address := haddr
  protocol := by rw [hst]; rfl
  lexer := fun _ => hlex
  token := fun htok => by rw [hlex] at htok; cases htok
  ready := fun hready => by simp [hst] at hready
  discarding := fun hdiscard => by rw [hkeeps] at hdiscard; cases hdiscard
  bounds := fun _ j hj => by cases hlive.symm.trans hj; exact hwf
  executing := fun _ => by simp [hlive]
  idle := fun hidle => absurd hidle hrun
  counters := hcount
  busy := by simp [State.engineIdle, hrun, hbusy]
  running := fun _ => ⟨hst, hkeeps, by rw [hlex]; rfl, hcause, i, hlive, hok⟩

/-- The invariant does not speak of the host's side, and of `busy` and the queue only by one equation. -/
theorem Inv.congr {s t : State} (hinv : Inv s) (hst : t.st = s.st) (hcommand : t.command = s.command)
    (hlex : t.lex = s.lex) (hkeeps : t.discard = s.discard) (hcause : t.errCause = s.errCause) (heng : t.eng = s.eng)
    (hbus : t.bus = s.bus) (hchip : t.chip = s.chip) (hbusy : t.busy = !(t.engineIdle && t.txq.isEmpty)) : Inv t where
  cells := hchip ▸ hinv.cells
  address := hbus ▸ hinv.address
  protocol := hst ▸ hinv.protocol
  lexer := hlex ▸ hinv.lexer
  token := hlex ▸ hinv.token
  ready := by rw [hst, hcommand]; exact hinv.ready
  discarding := by rw [hst, hkeeps, hlex]; exact hinv.discarding
  bounds := by rw [hst, hcommand]; exact hinv.bounds
  executing := by rw [hst, hcommand]; exact hinv.executing
  idle := by rw [heng, hbus, hchip]; exact hinv.idle
  counters := heng ▸ hinv.counters
  busy := hbusy
  running := fun hrun => by
    obtain ⟨hexecuting, hdiscard, htok, hnone, i, hlive, hok⟩ := hinv.running (heng ▸ hrun)
    refine ⟨hst.trans hexecuting, hkeeps.trans hdiscard, hlex ▸ htok, hcause.trans hnone, i, hcommand ▸ hlive, ?_⟩
    rw [engineOk_iff, heng, hbus, hchip]
    exact engineOk_iff.mp hok

theorem Inv.acceptByte {s : State} (hinv : Inv s) : Inv s.acceptByte :=
  hinv.congr rfl rfl rfl rfl rfl rfl rfl rfl hinv.busy

/-- The queue and the inputs of the step move after the block's part and the chip (40_interpreter.md R95 (4)). -/
theorem Inv.moved {s u : State} {c : Chip} (h : Inv { u with chip := c }) :
    Inv (State.nextPorts { State.moveQueue s u with chip := c }) :=
  h.congr (by simp) (by simp) (by simp) (by simp) (by simp) (by simp) (by simp) rfl (moveQueue_busy h.busy)

/-! ### Tokens and lines -/

/-- No row of a token event goes to `Ready` or to a reserved state, and only the rows of the write commands go to
`WaitValue` (30_encoding.md R84). -/
theorem ruleTable_token_hints : ∀ row ∈ ruleTable, row.event = .tok →
    row.hint ≠ .ready ∧ row.hint.reserved = false ∧
    (row.hint = .waitValue → row.handler = .hAddr ∧ (row.cmdChar = some cmdw ∨ row.cmdChar = some cmds)) := by decide

theorem wellFormed_of_burn {r : Command} {i : Instr} (hcmd : r.cmd = cmdw ∨ r.cmd = cmds)
    (haddr : addrInRange r.chip r.addr = true) (hlive : r.live = some i) : i.wellFormed = true := by
  obtain hcmd | hcmd := hcmd
  · simp only [Command.live, hcmd] at hlive
    cases hlive
    exact haddr
  · simp only [Command.live, hcmd] at hlive
    cases hlive
    exact haddr

/-- A token that takes an address for a write leaves a command whose address is tested (10_state.md R26). -/
theorem tokenEvent_wellFormed_waitValue {s u : State} {i : Instr} (h : tokenEvent s = .ok u) (hst : u.st = .waitValue)
    (hlive : u.command.live = some i) : i.wellFormed = true := by
  obtain ⟨row, handler, command, hrow, hhandler, hcommand, rfl⟩ := tokenEvent_ok_cases h
  obtain ⟨hmem, hmatches⟩ := lookupRow_some hrow
  obtain ⟨hcmd, -, hevent⟩ := Row.matches_iff.mp hmatches
  obtain ⟨-, -, hwait⟩ := ruleTable_token_hints row hmem hevent
  obtain ⟨haddr, hburn⟩ := hwait hst
  rw [haddr] at hhandler
  cases hhandler
  obtain ⟨hsame, hrange⟩ := handleAddr_spec hcommand
  exact wellFormed_of_burn (hburn.imp (hsame.trans <| eq_of_column hcmd ·) (hsame.trans <| eq_of_column hcmd ·)) hrange hlive

/-- Which commands the value rows belong to (30_encoding.md R84). -/
theorem ruleTable_value_rows : ∀ row ∈ ruleTable, row.event = .tok → row.handler = .hValue →
    row.cmdChar = some cmdw ∨ row.cmdChar = some cmds := by decide

/-- A token that completes a request leaves one of the six commands. -/
theorem tokenEvent_live {s u : State} (h : tokenEvent s = .ok u) (hst : u.st = .executing) : u.command.live ≠ none := by
  obtain ⟨row, handler, command, hrow, hhandler, hcommand, rfl⟩ := tokenEvent_ok_cases h
  obtain ⟨hmem, hmatches⟩ := lookupRow_some hrow
  obtain ⟨hcmd, -, hevent⟩ := Row.matches_iff.mp hmatches
  rw [Ne, live_eq_none_iff, not_not]
  obtain ⟨hchip, hscan⟩ | ⟨haddr, hread⟩ | ⟨hvalue, -⟩ := ruleTable_completing_rows row hmem hevent hst
  · rw [hchip] at hhandler
    cases hhandler
    have hkeeps := handleChip_cmd hcommand
    obtain hR | hK := hscan
    · simp [hkeeps, eq_of_column hcmd hR]
    · simp [hkeeps, eq_of_column hcmd hK]
  · rw [haddr] at hhandler
    cases hhandler
    obtain ⟨hkeeps, -⟩ := handleAddr_spec hcommand
    simp [hkeeps, eq_of_column hcmd hread]
  · have hburn := ruleTable_value_rows row hmem hevent hvalue
    rw [hvalue] at hhandler
    cases hhandler
    obtain ⟨value, rfl⟩ := handleValue_spec hcommand
    obtain hw | hs := hburn
    · simp [eq_of_column hcmd hw]
    · simp [eq_of_column hcmd hs]

theorem tokenEvent_parses {s u : State} (hinv : Inv s) (hkeeps : s.discard = false) (h : tokenEvent s = .ok u) :
    u.parses := by
  have hvalue := fun hst i => tokenEvent_wellFormed_waitValue (i := i) h hst
  have hexec := fun hst i => tokenEvent_wellFormed (i := i) hinv h hst
  have hlive := tokenEvent_live h
  obtain ⟨row, handler, command, hrow, hhandler, hcommand, rfl⟩ := tokenEvent_ok_cases h
  obtain ⟨hmem, hmatches⟩ := lookupRow_some hrow
  obtain ⟨-, -, hevent⟩ := Row.matches_iff.mp hmatches
  obtain ⟨hready, hreserved, -⟩ := ruleTable_token_hints row hmem hevent
  exact
    { protocol := hreserved, lexer := fun _ => rfl, token := nofun, ready := fun hst => absurd hst hready
      discarding := fun hdiscard => absurd (hkeeps.symm.trans hdiscard) nofun
      bounds := fun hst => hst.elim hvalue hexec, executing := hlive }

theorem tokenEvent_frame {s u : State} (h : tokenEvent s = .ok u) :
    u = { s with command := u.command, lex := clearedLexer, st := u.st } := by
  obtain ⟨row, handler, command, -, -, -, rfl⟩ := tokenEvent_ok_cases h
  rfl

theorem tokenEvent_inv {s u : State} (hinv : Inv s) (hidle : s.eng.point = .idle) (hkeeps : s.discard = false)
    (h : tokenEvent s = .ok u) : Inv u := by
  have hparses := tokenEvent_parses hinv hkeeps h
  rw [tokenEvent_frame h] at hparses ⊢
  exact hinv.of_idle hidle hparses rfl rfl rfl rfl (hinv.busy_of_idle hidle)

/-- The error transition leaves a state of the block (60_exceptions.md R149). -/
theorem raise_inv {s : State} (hinv : Inv s) (hidle : s.eng.point = .idle) (cause : Cause) (term : Terminator) :
    Inv { s.raise cause term with chip := s.chip.unchanged } := by
  refine hinv.of_idle hidle (parses_of_ready rfl rfl rfl) rfl rfl rfl rfl ?_
  simp [State.raise, errorResponse]

/-- The engine at the first line of a command finds everything at rest (10_state.md R38). -/
theorem engineAt_firstPoint {s : State} {i : Instr} {e : Engine} {held : Nat} (hinv : Inv s) (hidle : s.eng.point = .idle)
    (htmr : e.tmr = s.eng.tmr) : EngineAt i (firstPoint i) e s.bus s.chip.stage held := by
  obtain ⟨hsupply, hen, hsel, hstage, hzero⟩ := hinv.idle hidle
  cases i <;>
  exact
    { point := by simp [firstPoint, pointsOf], supply := hsupply, enable := hen, stage := hstage, line := hsel
      profile := nofun, cell := nofun, scan := fun _ => nofun, bit := nofun, mode := nofun
      timer := fun _ => htmr.trans hzero, wait := nofun }

theorem start_inv {s : State} {i : Instr} (hinv : Inv s) (hidle : s.eng.point = .idle) (hlive : s.command.live = some i)
    (hwf : i.wellFormed = true) (hlex : s.lex = clearedLexer) (hkeeps : s.discard = false) :
    Inv { s.start (firstPoint i) with chip := s.chip.unchanged } :=
  inv_of_running rfl hlive hwf hlex hkeeps rfl rfl (firstPoint_ne_idle i) hinv.cells hinv.address hinv.counters
    (engineOk_iff.mpr (engineAt_firstPoint (s := s) hinv hidle rfl))

/-- A state of the block at which nothing happens for a cycle. -/
theorem Inv.unchanged {s : State} (hinv : Inv s) (hidle : s.eng.point = .idle) :
    Inv { s with chip := s.chip.unchanged } :=
  hinv.of_idle hidle ⟨hinv.protocol, hinv.lexer, hinv.token, hinv.ready, hinv.discarding, hinv.bounds, hinv.executing⟩
    rfl rfl rfl rfl (hinv.busy_of_idle hidle)

theorem lineEvent_inv {s u : State} (hinv : Inv s) (hidle : s.eng.point = .idle) (hlex : s.lex = clearedLexer)
    (hkeeps : s.discard = false) (h : lineEvent s = .next u) : Inv { u with chip := s.chip.unchanged } := by
  have hline := lineEvents s
  split_ifs at hline with hready hversion hexecuting
  · cases h.symm.trans hline
    exact hinv.unchanged hidle
  · cases h.symm.trans (hline.trans (exec_of_idle _ hidle))
    exact start_inv hinv hidle (live_of_cmdV hversion) rfl hlex hkeeps
  · cases hlive : s.command.live with
    | none => exact absurd hlive (hinv.executing hexecuting)
    | some i =>
      rw [hlive] at hline
      cases h.symm.trans (hline.trans (exec_of_idle _ hidle))
      exact start_inv hinv hidle hlive (hinv.bounds (.inr hexecuting) i hlive) hlex hkeeps
  · cases h.symm.trans hline
    exact raise_inv hinv hidle .noRule .lf

/-! ### Bytes -/

section
variable {s u : State}

theorem atLineEnd_cases (h : s.atLineEnd = .ok u) :
    (s.lex.inTok = true ∧ tokenEvent s = .ok u) ∨ (s.lex.inTok = false ∧ u = s) := by
  unfold State.atLineEnd at h
  split at h
  · next htok => exact .inl ⟨htok, h⟩
  · next htok =>
    cases h
    exact .inr ⟨by simpa using htok, rfl⟩

theorem atLineEnd_chip (h : s.atLineEnd = .ok u) : u.chip = s.chip := by
  obtain ⟨-, h⟩ | ⟨-, rfl⟩ := atLineEnd_cases h
  · exact tokenEvent_chip h
  · rfl

theorem atLineEnd_idle (h : s.atLineEnd = .ok u) (hidle : s.eng.point = .idle) : u.eng.point = .idle := by
  obtain ⟨-, h⟩ | ⟨-, rfl⟩ := atLineEnd_cases h
  · obtain ⟨heng, -⟩ := tokenEvent_eng_bus h
    rw [heng, hidle]
  · exact hidle

theorem atLineEnd_inv (hinv : Inv s) (hidle : s.eng.point = .idle) (hkeeps : s.discard = false)
    (h : s.atLineEnd = .ok u) : Inv u := by
  obtain ⟨-, h⟩ | ⟨-, rfl⟩ := atLineEnd_cases h
  · exact tokenEvent_inv hinv hidle hkeeps h
  · exact hinv

theorem atLineEnd_cleared (hinv : Inv s) (hkeeps : s.discard = false) (h : s.atLineEnd = .ok u) :
    u.lex = clearedLexer ∧ u.discard = false := by
  obtain ⟨-, h⟩ | ⟨htok, rfl⟩ := atLineEnd_cases h
  · rw [tokenEvent_frame h]
    exact ⟨rfl, hkeeps⟩
  · exact ⟨hinv.lexer htok, hkeeps⟩

theorem delimByte_of_atLineEnd (h : s.atLineEnd = .ok u) : delimByte s = .next u := by
  unfold delimByte
  obtain ⟨htok, h⟩ | ⟨htok, rfl⟩ := atLineEnd_cases h
  · rw [if_pos htok, h]
  · rw [if_neg (by simp [htok])]

end

theorem append_tokLen_ne_zero (l : Lexer) (c : Byte) : (l.append c).tokLen ≠ 0#2 := by
  unfold Lexer.append
  split
  · intro hzero
    have := continueToken_tokLen_toNat c l
    simp only [hzero, BitVec.toNat_zero] at this
    omega
  · nofun

theorem append_parses {s : State} (hinv : Inv s) (hkeeps : s.discard = false) (c : Byte)
    (chip : Chip) : ({ s with lex := s.lex.append c, chip := chip } : State).parses where
  protocol := hinv.protocol
  lexer := fun htok => by simp at htok
  token := fun _ => append_tokLen_ne_zero s.lex c
  ready := hinv.ready
  discarding := fun hdiscard => absurd (hkeeps.symm.trans hdiscard) nofun
  bounds := hinv.bounds
  executing := hinv.executing

theorem delimByte_inv {s u : State} (hinv : Inv s) (hidle : s.eng.point = .idle) (hkeeps : s.discard = false)
    (h : delimByte s = .next u) : Inv { u with chip := s.chip.unchanged } := by
  cases hline : s.atLineEnd with
  | error cause =>
    cases h.symm.trans (delimByte_of_error hline)
    exact raise_inv hinv hidle cause .delim
  | ok v =>
    cases h.symm.trans (delimByte_of_atLineEnd hline)
    rw [← atLineEnd_chip hline]
    exact (atLineEnd_inv hinv hidle hkeeps hline).unchanged (atLineEnd_idle hline hidle)

theorem lfByte_inv {s u : State} (hinv : Inv s) (hidle : s.eng.point = .idle) (hkeeps : s.discard = false)
    (h : lfByte s = .next u) : Inv { u with chip := s.chip.unchanged } := by
  cases hline : s.atLineEnd with
  | error cause =>
    cases h.symm.trans (lfByte_of_error hline)
    exact raise_inv hinv hidle cause .lf
  | ok v =>
    obtain ⟨hlex, hdiscard⟩ := atLineEnd_cleared hinv hkeeps hline
    rw [lfByte_of_atLineEnd hline] at h
    rw [← atLineEnd_chip hline]
    exact lineEvent_inv (atLineEnd_inv hinv hidle hkeeps hline) (atLineEnd_idle hline hidle) hlex hdiscard h

theorem byteStep_inv {s u : State} {c : Byte} (hinv : Inv s) (hidle : s.eng.point = .idle) (h : byteStep c s = .next u) :
    Inv { u with chip := s.chip.unchanged } := by
  obtain ⟨hdiscard, rfl⟩ | ⟨hkeeps, rfl⟩ | ⟨hkeeps, -, -, hdelim⟩ | ⟨hkeeps, -, -, hlf⟩ := byteStep_cases h
  · obtain ⟨hready, htok⟩ := hinv.discarding hdiscard
    rw [discardByte_eq c hdiscard]
    exact hinv.of_idle hidle (parses_of_ready hready (hinv.ready hready) (hinv.lexer htok)) rfl rfl rfl rfl
      (hinv.busy_of_idle hidle)
  · exact hinv.of_idle hidle (append_parses hinv hkeeps c _) rfl rfl rfl rfl (hinv.busy_of_idle hidle)
  · exact delimByte_inv hinv hidle hkeeps hdelim
  · exact lfByte_inv hinv hidle hkeeps hlf

end Sys2Proof.Machine

/-! SUPPORT. Every step keeps the invariant, in the engine's part, and what follows of each line and each step: every line runs,
the block stops only where a pulse finds no chip, and the electrical rules (42_programming_engine.md R126 to R139,
70_reset_and_hazards.md R172 to R175). -/

namespace Sys2Proof.Machine

/-! ### What each line does to the counters and the address -/

section
variable {i : Instr} {s u : State}

/-- The counters keep their ranges (10_state.md R37). -/
theorem Ran.counters (h : Ran i s u) (hok : EngineOk i s)
    (hcount : s.eng.bit.toNat ≤ 8 ∧ s.eng.scanA.toNat ≤ 512) : u.eng.bit.toNat ≤ 8 ∧ u.eng.scanA.toNat ≤ 512 := by
  have hbit : ∀ k ≤ 8, (BitVec.ofNat 4 k).toNat ≤ 8 := by decide
  have hnext : scans i = true → s.eng.point.addressSet = true → (s.eng.scanA + 1#10).toNat ≤ 512 := fun hscan hset => by
    have hlt := hok.scan hscan hset
    have hcells := cellCount_le (profileOf i)
    rw [BitVec.toNat_add]
    simp only [BitVec.toNat_ofNat]
    omega
  obtain ⟨hcountBit, hcountScan⟩ := hcount
  cases h with
  | cell a hi hp ha => exact ⟨hcountBit, ha.le.trans (cellCount_le _)⟩
  | lastCell a hi hp =>
    subst hi
    refine ⟨hcountBit, ?_⟩
    obtain ⟨-, rfl⟩ | ⟨hp, rfl⟩ := hp
    · exact Nat.zero_le _
    · exact hnext rfl (by rw [hp]; rfl)
  | scanZero => exact ⟨hcountBit, Nat.zero_le _⟩
  | blank hi hp =>
    subst hi
    exact ⟨hcountBit, hnext rfl (by rw [hp]; rfl)⟩
  | loopEnd k hburn hp hk => exact ⟨hbit k hk, hcountScan⟩
  | selectLine k hburn hp hreal hk => exact ⟨hbit k hk.lt.le, hcountScan⟩
  | simulated k hburn hp hk => exact ⟨hbit k hk.lt.le, hcountScan⟩
  | _ => exact ⟨hcountBit, hcountScan⟩

theorem addrInRange_truncate {chip : Profile} {a : BitVec 10} (ha : a.toNat < cellCount chip) :
    addrInRange chip (a.truncate 9) = true := by
  have hcells := cellCount_le chip
  refine decide_eq_true ?_
  simp only [BitVec.truncate_eq_setWidth, BitVec.toNat_setWidth]
  omega

theorem addrInRange_cellOf {a : BitVec 10} (hwf : i.wellFormed = true) (hi : i ≠ .version) (hscan : scans i = false) :
    addrInRange (profileOf i) (cellOf i a) = true := by
  cases i with
  | version => exact absurd rfl hi
  | readAll => cases hscan
  | blankCheck => cases hscan
  | readByte => exact hwf
  | program => exact hwf
  | simulate => exact hwf

/-- The address outputs go on naming a cell that exists (20_memory.md R60). -/
theorem Ran.addrInRange (h : Ran i s u) (hok : EngineOk i s) (hwf : i.wellFormed = true)
    (haddr : Sys2Proof.addrInRange s.bus.chipSel s.bus.abus = true) : Sys2Proof.addrInRange u.bus.chipSel u.bus.abus = true := by
  cases h with
  | select =>
    show Sys2Proof.addrInRange (profileOf i) 0#9 = true
    cases profileOf i <;> rfl
  | address hi hscan hp =>
    have hprofile : s.bus.chipSel = profileOf i := hok.profile (by rw [hp]; rfl) hi
    exact hprofile ▸ addrInRange_cellOf hwf hi hscan
  | cell a hi hp ha =>
    subst hi
    have hset : s.eng.point.profileSet = true := by
      simp only [List.mem_cons, List.not_mem_nil, or_false] at hp
      obtain hp | hp := hp <;> rw [hp] <;> rfl
    have hprofile := hok.profile hset nofun
    exact hprofile ▸ addrInRange_truncate ha
  | blankCell hi hp ha =>
    subst hi
    have hprofile := hok.profile (by rw [hp]; rfl) nofun
    exact hprofile ▸ addrInRange_truncate ha
  | _ => exact haddr

theorem answer_next {c : Chip} {bus : Bus} (haddr : addrInRange bus.chipSel bus.abus = true) :
    ∃ b c', c.answer bus = .ok (b, c') := by
  unfold Chip.answer
  rw [if_pos haddr]
  split
  · exact ⟨_, _, rfl⟩
  · exact ⟨_, _, rfl⟩

theorem sampleBus_next (haddr : addrInRange s.bus.chipSel s.bus.abus = true) (line : Byte → State → State) :
    ∃ u, s.sampleBus line = .next u := by
  obtain ⟨b, c, hanswer⟩ := answer_next (c := s.chip) haddr
  exact ⟨line b { s with chip := c }, by rw [State.sampleBus, hanswer]⟩

/-- Every line of every command has a next state: only a sample could stop, at a cell that does not exist. -/
theorem lineOf_next (i : Instr) (haddr : addrInRange s.bus.chipSel s.bus.abus = true) :
    ∀ p ∈ pointsOf i, ∃ u, lineOf i p s = .next u := by
  cases i with
  | version =>
    simp only [pointsOf, List.forall_mem_cons]
    exact ⟨⟨_, rfl⟩, nofun⟩
  | readAll =>
    simp only [pointsOf, List.forall_mem_cons]
    exact ⟨⟨_, rfl⟩, ⟨_, rfl⟩, ⟨_, rfl⟩, ⟨_, rfl⟩, ⟨_, rfl⟩, sampleBus_next haddr fun b t => (t.setB b).goto .scanEmit,
      ⟨_, rfl⟩, ⟨_, rfl⟩, ⟨_, rfl⟩, ⟨_, rfl⟩, nofun⟩
  | blankCheck =>
    simp only [pointsOf, List.forall_mem_cons]
    exact ⟨⟨_, rfl⟩, ⟨_, rfl⟩, ⟨_, rfl⟩, ⟨_, rfl⟩, ⟨_, rfl⟩, ⟨_, rfl⟩,
      sampleBus_next haddr fun b t => (t.setB b).goto .blankTest, ⟨_, rfl⟩, ⟨_, rfl⟩, ⟨_, rfl⟩, nofun⟩
  | readByte =>
    simp only [pointsOf, List.forall_mem_cons]
    exact ⟨⟨_, rfl⟩, ⟨_, rfl⟩, ⟨_, rfl⟩, ⟨_, rfl⟩, sampleBus_next haddr fun b t => (t.setB b).goto .powerDown,
      ⟨_, rfl⟩, ⟨_, rfl⟩, ⟨_, rfl⟩, nofun⟩
  | program =>
    simp only [pointsOf, List.forall_mem_cons]
    exact ⟨⟨_, rfl⟩, ⟨_, rfl⟩, ⟨_, rfl⟩, ⟨_, rfl⟩, sampleBus_next haddr fun b t => (t.setExisting b).goto .pathOff,
      ⟨_, rfl⟩, ⟨_, rfl⟩, ⟨_, rfl⟩, ⟨_, rfl⟩, ⟨_, rfl⟩, ⟨_, rfl⟩, ⟨_, rfl⟩, ⟨_, rfl⟩, ⟨_, rfl⟩, ⟨_, rfl⟩,
      sampleBus_next haddr State.takeVerify, ⟨_, rfl⟩, ⟨_, rfl⟩, ⟨_, rfl⟩, ⟨_, rfl⟩, nofun⟩
  | simulate =>
    simp only [pointsOf, List.forall_mem_cons]
    exact ⟨⟨_, rfl⟩, ⟨_, rfl⟩, ⟨_, rfl⟩, ⟨_, rfl⟩, sampleBus_next haddr fun b t => (t.setExisting b).goto .pathOff,
      ⟨_, rfl⟩, ⟨_, rfl⟩, ⟨_, rfl⟩, ⟨_, rfl⟩, ⟨_, rfl⟩, ⟨_, rfl⟩, ⟨_, rfl⟩, nofun⟩

end

/-- Settles O25: the timer counts, or the line of the point runs. -/
theorem everyLineRuns : Obligations.EveryLineRuns := by
  intro i s hinv hlive hrun
  obtain ⟨j, hj, hok⟩ := hinv.engineOk hrun
  cases hlive.symm.trans hj
  by_cases htmr : s.eng.tmr = 0#32
  · obtain ⟨u, hu⟩ := lineOf_next i hinv.address _ hok.point
    exact ⟨u, (exec_of_line i hrun htmr).trans hu⟩
  · exact ⟨s.tick, exec_of_waiting i hrun htmr⟩

/-! ### A step of the engine -/

section
variable {i : Instr} {s u : State}

/-- While the engine waits the chip counts and the timer counts down. -/
theorem tick_engineOk (hok : EngineOk i s) (htmr : s.eng.tmr ≠ 0#32) :
    EngineOk i { s.tick with chip := s.chip.unchanged } where
  point := hok.point
  supply := hok.supply
  enable := hok.enable
  stage := hok.stage
  line := hok.line
  profile := hok.profile
  cell := hok.cell
  scan := hok.scan
  bit := hok.bit
  mode := hok.mode
  timer := fun hdelay => absurd (hok.timer hdelay) htmr
  wait := fun n hn => by
    obtain ⟨hle, heq⟩ := hok.wait n hn
    have hpos : s.eng.tmr.toNat ≠ 0 := fun hzero => htmr (BitVec.eq_of_toNat_eq hzero)
    have htick : (s.eng.tmr - 1#32).toNat = s.eng.tmr.toNat - 1 := by bv_omega
    show n ≤ s.chip.held + 1 + (s.eng.tmr - 1#32).toNat ∧
      (s.eng.point ≠ .readSample → s.chip.held + 1 + (s.eng.tmr - 1#32).toNat = n)
    rw [htick]
    exact ⟨by omega, fun hp => by have := heq hp; omega⟩

/-- A line that is not the last one keeps `st` and the Command register. -/
theorem exec_keeps (hrun : s.eng.point ≠ .idle) (hp : s.eng.point ≠ .respond) (h : exec i s = .next u) :
    u.st = s.st ∧ u.command = s.command := by
  obtain ⟨hidle, -⟩ | ⟨-, -, rfl⟩ | ⟨-, -, hran⟩ := exec_cases h
  · exact absurd hidle hrun
  · exact ⟨rfl, rfl⟩
  · obtain hsame | ⟨hend, -⟩ := hran.command
    · exact hsame
    · exact absurd hend hp

theorem point_ne_idle {i : Instr} : ∀ p ∈ pointsOf i, p ≠ .idle := by
  cases i <;> simp [pointsOf]

/-- What a step of the engine does, with what the chip makes of it: it ends the command, or the engine runs on, or it is the stop
of a pulse that finds no chip (20_memory.md R61). -/
theorem exec_running_cases (hok : EngineOk i s) (haddr : addrInRange s.bus.chipSel s.bus.abus = true)
    (h : exec i s = .next u) :
    (s.eng.point = .respond ∧ u = s.finish (payloadOf i s.eng ++ okTrailer)) ∨
    (s.eng.point ≠ .respond ∧ ∃ c, u.chip.observe s.bus u.bus = .ok c ∧ EngineOk i { u with chip := c }) ∨
    (s.eng.point ∈ [.burnTest, .bitNext] ∧ programs i = true ∧ s.chip.socket.matches s.bus.chipSel = false ∧
      u.chip.observe s.bus u.bus = .error .programmingUnspecified) := by
  have hrun := point_ne_idle _ hok.point
  by_cases hend : s.eng.point = .respond
  · have htmr := hok.timer (by rw [hend]; rfl)
    exact .inl ⟨hend, Host.Outcome.next.inj (h.symm.trans (exec_of_respond i hend htmr))⟩
  right
  obtain ⟨hidle, -⟩ | ⟨-, htmr, rfl⟩ | ⟨-, htmr, hran⟩ := exec_cases h
  · exact absurd hidle hrun
  · exact .inl ⟨hend, _, observe_same, tick_engineOk hok htmr⟩
  · obtain ⟨hlast, -⟩ | ⟨c, hc, hat⟩ | hstop := hran.goesOn hok htmr haddr
    · exact absurd hlast hend
    · exact .inl ⟨hend, c, hc, engineOk_iff.mpr hat⟩
    · exact .inr hstop

theorem Inv.busy_of_running (hinv : Inv s) (hrun : s.eng.point ≠ .idle) : s.busy = true := by
  rw [hinv.busy, State.engineIdle]
  simp [hrun]

/-- The last line leaves a state of the block: the chip off, the response queued (41_commands.md R115 (c), (d)). -/
theorem finish_inv {bytes : List Byte} (hinv : Inv s) (hok : EngineOk i s) (hend : s.eng.point = .respond)
    (hbytes : bytes ≠ []) : Inv { s.finish bytes with chip := s.chip.unchanged } := by
  have hrun := point_ne_idle _ hok.point
  obtain ⟨-, hkeeps, htok, -⟩ := hinv.running hrun
  have h := hok.engineAt hend
  refine inv_of_ready rfl rfl (hinv.lexer htok) hkeeps rfl hinv.cells hinv.address
    ⟨h.supply, h.enable, h.line, h.stage, h.timer rfl⟩ hinv.counters ?_
  rw [show ({ s.finish bytes with chip := s.chip.unchanged } : State).busy = s.busy from rfl, hinv.busy_of_running hrun]
  simp [State.finish, hbytes]

theorem exec_counters (hok : EngineOk i s) (hcount : s.eng.bit.toNat ≤ 8 ∧ s.eng.scanA.toNat ≤ 512)
    (h : exec i s = .next u) : u.eng.bit.toNat ≤ 8 ∧ u.eng.scanA.toNat ≤ 512 := by
  obtain ⟨-, rfl⟩ | ⟨-, -, rfl⟩ | ⟨-, -, hran⟩ := exec_cases h
  · exact hcount
  · exact hcount
  · exact hran.counters hok hcount

theorem exec_addrInRange (hok : EngineOk i s) (hwf : i.wellFormed = true)
    (haddr : addrInRange s.bus.chipSel s.bus.abus = true) (h : exec i s = .next u) :
    addrInRange u.bus.chipSel u.bus.abus = true := by
  obtain ⟨-, rfl⟩ | ⟨-, -, rfl⟩ | ⟨-, -, hran⟩ := exec_cases h
  · exact haddr
  · exact haddr
  · exact hran.addrInRange hok hwf haddr

theorem exec_inv {c : Chip} (hinv : Inv s) (hrun : s.eng.point ≠ .idle) (hlive : s.command.live = some i)
    (h : exec i s = .next u) (hc : u.chip.observe s.bus u.bus = .ok c) : Inv { u with chip := c } := by
  obtain ⟨hexecuting, hkeeps, htok, hcause, j, hj, hok⟩ := hinv.running hrun
  cases hlive.symm.trans hj
  obtain ⟨hend, rfl⟩ | ⟨hp, c', hc', hok'⟩ | ⟨-, -, -, hstop⟩ := exec_running_cases hok hinv.address h
  · cases hc.symm.trans observe_same
    exact finish_inv hinv hok hend (by simp [okTrailer])
  · cases hc.symm.trans hc'
    obtain ⟨hst, hcommand⟩ := exec_keeps hrun hp h
    obtain ⟨herr, hbusy, -⟩ := exec_running hrun h
    have hwf := hinv.bounds (.inr hexecuting) i hlive
    have hcells := observe_wf hc (by rw [Chip.sameButDraws_cells (exec_chip h)]; exact hinv.cells)
    exact inv_of_running (hst.trans hexecuting) (hcommand ▸ hlive) hwf ((exec_lex h).trans (hinv.lexer htok))
      ((exec_discard h).trans hkeeps) (herr.trans hcause) (hbusy.trans (hinv.busy_of_running hrun))
      (point_ne_idle _ hok'.point) hcells (exec_addrInRange (u := u) hok hwf hinv.address h)
      (exec_counters (u := u) hok hinv.counters h) hok'
  · cases hc.symm.trans hstop

end

/-! ### Every step -/

section
variable {s t u : State}

theorem cutByReset_stage (c : Chip) (old : Bus) : (c.cutByReset old).stage = .quiet := by
  unfold Chip.cutByReset
  split <;> rfl

theorem lineEvent_chip_of_idle (hidle : s.eng.point = .idle) (h : lineEvent s = .next u) : u.chip = s.chip := by
  obtain ⟨-, rfl⟩ | ⟨-, rfl⟩ | ⟨-, row, i, -, -, hexec⟩ := lineEvent_cases h
  · rfl
  · rfl
  · cases hexec.symm.trans (exec_of_idle i hidle)
    rfl

theorem lfByte_chip_of_idle (hidle : s.eng.point = .idle) (h : lfByte s = .next u) : u.chip = s.chip := by
  cases hline : s.atLineEnd with
  | error cause =>
    cases h.symm.trans (lfByte_of_error hline)
    rfl
  | ok v =>
    rw [lfByte_of_atLineEnd hline] at h
    exact (lineEvent_chip_of_idle (atLineEnd_idle hline hidle) h).trans (atLineEnd_chip hline)

/-- The interpreter does not reach the chip. -/
theorem byteStep_chip_of_idle {b : Byte} (hidle : s.eng.point = .idle) (h : byteStep b s = .next u) :
    u.chip = s.chip := by
  obtain ⟨-, rfl⟩ | ⟨-, rfl⟩ | ⟨-, -, -, hdelim⟩ | ⟨-, -, -, hlf⟩ := byteStep_cases h
  · simp
  · rfl
  · exact delimByte_chip hdelim
  · exact lfByte_chip_of_idle hidle hlf

theorem resetStep_inv (hinv : Inv s) : Inv s.resetStep :=
  inv_of_ready rfl rfl rfl rfl rfl (cutByReset_wf hinv.cells) rfl ⟨rfl, rfl, rfl, cutByReset_stage _ _, rfl⟩
    ⟨Nat.zero_le _, Nat.zero_le _⟩ rfl

theorem blockStep_inv {c : Chip} (hinv : Inv s) (h : blockStep s = .next u)
    (hc : u.chip.observe s.bus u.bus = .ok c) : Inv { u with chip := c } := by
  obtain ⟨hidle, -, rfl⟩ | ⟨hidle, b, -, hbyte⟩ | ⟨hrun, i, hlive, hexec⟩ := blockStep_cases h
  · cases hc.symm.trans observe_same
    exact hinv.unchanged hidle
  · have hchip := byteStep_chip_of_idle (s := s.acceptByte) hidle hbyte
    rw [byteStep_bus (s := s.acceptByte) hidle hbyte, hchip] at hc
    cases hc.symm.trans observe_same
    exact byteStep_inv hinv.acceptByte hidle hbyte
  · exact exec_inv hinv hrun hlive hexec hc

end

/-- Settles O57: by the branches of the step, reset, the byte step and the lines of the engine. -/
theorem stepKeepsInv : Obligations.StepKeepsInv := by
  intro s t hinv h
  obtain ⟨-, rfl⟩ | ⟨-, u, c, hblock, hc, rfl⟩ := step_cases h
  · exact resetStep_inv hinv
  · exact (blockStep_inv hinv hblock hc).moved

end Sys2Proof.Machine

/-! SUPPORT. The block goes on (20_memory.md R61, 60_exceptions.md R152), and the electrical rules of each step
(70_reset_and_hazards.md R172 to R175, 20_memory.md R50, R51, R64). -/

namespace Sys2Proof.Machine

/-! ### With the engine idle every step goes on -/

section
variable {s t u : State}

theorem lineEvent_next (hidle : s.eng.point = .idle) : ∃ u, lineEvent s = .next u := by
  have hline := lineEvents s
  split_ifs at hline
  · exact ⟨_, hline⟩
  · exact ⟨_, hline.trans (exec_of_idle _ hidle)⟩
  · cases hlive : s.command.live with
    | none =>
      rw [hlive] at hline
      exact ⟨_, hline⟩
    | some i =>
      rw [hlive] at hline
      exact ⟨_, hline.trans (exec_of_idle i hidle)⟩
  · exact ⟨_, hline⟩

/-- A byte of a token (40_interpreter.md R96). -/
theorem byteStep_token {c : Byte} (hkeeps : s.discard = false) (hdelim : classOf c ≠ .delim) (hlf : classOf c ≠ .lf) :
    byteStep c s = .next { s with lex := s.lex.append c } := by
  unfold byteStep
  rw [if_neg (by simp [hkeeps])]
  split
  · rfl
  · rfl
  · next h => exact absurd h hdelim
  · next h => exact absurd h hlf

theorem byteStep_next (c : Byte) (hst : s.st.reserved = false) (hidle : s.eng.point = .idle) :
    ∃ u, byteStep c s = .next u := by
  cases hdiscard : s.discard with
  | true => exact ⟨_, byteStep_of_discard c hdiscard⟩
  | false =>
    cases hclass : classOf c with
    | hex v => exact ⟨_, byteStep_token hdiscard (by simp [hclass]) (by simp [hclass])⟩
    | other => exact ⟨_, byteStep_token hdiscard (by simp [hclass]) (by simp [hclass])⟩
    | delim =>
      rw [byteStep_delim hclass hdiscard hst]
      cases hline : s.atLineEnd with
      | error cause => exact ⟨_, delimByte_of_error hline⟩
      | ok u => exact ⟨_, delimByte_of_atLineEnd hline⟩
    | lf =>
      rw [classOf_eq_lf_iff.mp hclass, byteStep_lf hdiscard hst]
      cases hline : s.atLineEnd with
      | error cause => exact ⟨_, lfByte_of_error hline⟩
      | ok u =>
        rw [lfByte_of_atLineEnd hline]
        exact lineEvent_next (atLineEnd_idle hline hidle)

theorem step_next_of_idle (hst : s.st.reserved = false) (hidle : s.eng.point = .idle) : ∃ t, step s = .next t := by
  cases hrst : s.portsNow.rst with
  | true => exact ⟨_, step_of_rst hrst⟩
  | false =>
    have hblock : ∃ u, blockStep s = .next u ∧ u.bus = s.bus := by
      cases haccepted : s.accepted with
      | none => exact ⟨s, by simp [blockStep, State.engineIdle, hidle, haccepted], rfl⟩
      | some c =>
        obtain ⟨u, hu⟩ := byteStep_next (s := s.acceptByte) c hst hidle
        exact ⟨u, (blockStep_of_accepted haccepted).trans hu, byteStep_bus (s := s.acceptByte) hidle hu⟩
    obtain ⟨u, hu, hbus⟩ := hblock
    exact ⟨_, step_eq hrst hu (by rw [hbus]; exact observe_same)⟩

/-! ### The socket -/

theorem observe_socket {c c' : Chip} {old new : Bus} (h : c.observe old new = .ok c') : c'.socket = c.socket := by
  obtain ⟨-, rfl⟩ | ⟨-, -, -, rfl⟩ | ⟨-, g, rfl⟩ := observe_cases h <;> rfl

theorem cutByReset_socket (c : Chip) (old : Bus) : (c.cutByReset old).socket = c.socket := by
  unfold Chip.cutByReset
  split <;> rfl

theorem sameButDraws_socket {c c' : Chip} (h : c.sameButDraws c') : c'.socket = c.socket := by
  obtain ⟨d, rfl⟩ := h
  rfl

/-- Nothing but the environment changes what stands in the socket. -/
theorem step_socket (h : step s = .next t) : t.chip.socket = s.chip.socket := by
  obtain ⟨-, rfl⟩ | ⟨-, u, c, hblock, hc, rfl⟩ := step_cases h
  · exact cutByReset_socket _ _
  · exact (observe_socket hc).trans (sameButDraws_socket (blockStep_chip hblock))

/-! ### Progress -/

/-- A step of the block goes on, or it is the stop of a pulse of `w` that finds no chip of its profile. -/
theorem step_next_or_stop (hinv : Inv s) :
    (∃ t, step s = .next t) ∨
    (step s = .fault .programmingUnspecified ∧ s.chip.socket.matches s.bus.chipSel = false ∧
      s.eng.point ∈ [.burnTest, .bitNext] ∧
      ∃ addr value, s.command.live = some (.program s.bus.chipSel addr value)) := by
  by_cases hidle : s.eng.point = .idle
  · exact .inl (step_next_of_idle hinv.protocol hidle)
  cases hrst : s.portsNow.rst with
  | true => exact .inl ⟨_, step_of_rst hrst⟩
  | false =>
    obtain ⟨i, hlive, hok⟩ := hinv.engineOk hidle
    obtain ⟨u, hexec⟩ := everyLineRuns i s hinv hlive hidle
    have hblock := (blockStep_of_running hidle hlive).trans hexec
    obtain ⟨-, rfl⟩ | ⟨-, c, hc, -⟩ | ⟨hp, hmode, hmismatch, hstop⟩ := exec_running_cases hok hinv.address hexec
    · exact .inl ⟨_, step_eq hrst hblock observe_same⟩
    · exact .inl ⟨_, step_eq hrst hblock hc⟩
    · obtain ⟨chip, addr, value, rfl⟩ := programs_iff.mp hmode
      have hset : s.eng.point.profileSet = true := by
        simp only [List.mem_cons, List.not_mem_nil, or_false] at hp
        obtain hp | hp := hp <;> rw [hp] <;> rfl
      have hprofile : s.bus.chipSel = chip := hok.profile hset nofun
      refine .inr ⟨?_, hmismatch, hp, addr, value, hprofile ▸ hlive⟩
      rw [step_of_not_rst hrst, hblock]
      simp only [andThen, State.endStep, hstop]

theorem runs_succ_fault {n : Nat} {f : Fault} (h : step s = .fault f) : runs (n + 1) s = .fault f := by
  have hs : core.step s = .fault f := h
  simp only [runs, Host.Core.run, hs]
  rfl

end

/-- The run of a state of the block, whatever stands in the socket: it goes on, or it comes to the stop. -/
theorem runs_next_or_stop : ∀ (n : Nat) (s : State), Inv s →
    (∃ t, runs n s = .next t ∧ t.chip.socket = s.chip.socket) ∨
    (runs n s = .fault .programmingUnspecified ∧
      ∃ k u chip addr value, k < n ∧ runs k s = .next u ∧ step u = .fault .programmingUnspecified ∧
        u.command.live = some (.program chip addr value) ∧ s.chip.socket.matches chip = false)
  | 0, s, _ => .inl ⟨s, rfl, rfl⟩
  | n + 1, s, hinv => by
    obtain ⟨t, ht⟩ | ⟨hfault, hmismatch, -, addr, value, hlive⟩ := step_next_or_stop hinv
    · have hsocket := step_socket ht
      rw [runs_succ ht, ← hsocket]
      obtain hgoes | ⟨hstop, k, u, chip, addr, value, hk, hu, hrest⟩ := runs_next_or_stop n t (stepKeepsInv s t hinv ht)
      · exact .inl hgoes
      · exact .inr ⟨hstop, k + 1, u, chip, addr, value, Nat.succ_lt_succ hk, (runs_succ ht).trans hu, hrest⟩
    · exact .inr ⟨runs_succ_fault hfault, 0, s, _, addr, value, n.succ_pos, rfl, hfault, hlive, hmismatch⟩

/-- Settles O59: the step by the engine's point, the run by induction on its length. -/
theorem stopsOnlyWithoutChip : Obligations.StopsOnlyWithoutChip :=
  ⟨fun _ hinv => (step_next_or_stop hinv).imp_left fun ⟨t, ht⟩ => ⟨t, ht, step_socket ht⟩, runs_next_or_stop⟩

/-- Settles O58: a chip of the selected profile matches every profile, so the stop of O59 does not come. -/
theorem neverStops : Obligations.NeverStops := by
  intro n s hinv hsocket
  obtain ⟨t, ht, hsame⟩ | ⟨-, k, u, chip, addr, value, -, -, -, -, hmismatch⟩ := runs_next_or_stop n s hinv
  · exact ⟨t, ht, hsame.trans hsocket⟩
  · rw [hsocket] at hmismatch
    cases hmismatch

/-! ### Samples -/

/-- Settles O42: at a sample's line the wait of its read is over, so the outputs have stood for `N_READ` cycles. -/
theorem samplesAreGood : Obligations.SamplesAreGood := by
  intro s hinv hp htmr hmatch
  have hrun : s.eng.point ≠ .idle := by obtain hp | hp := hp <;> simp [hp]
  obtain ⟨i, -, hok⟩ := hinv.engineOk hrun
  have hgood : s.bus.supply = .nominal ∧ s.bus.en = true ∧ s.bus.progSel = 0x00#8 ∧ Config.nRead ≤ s.chip.held := by
    obtain hp | hp := hp <;>
    · have h := hok.engineAt hp
      obtain ⟨hle, -⟩ := h.wait Config.nRead rfl
      rw [htmr] at hle
      exact ⟨h.supply, h.enable, h.line, hle⟩
  obtain ⟨hsupply, hen, hsel, hheld⟩ := hgood
  refine ⟨hsupply, hen, hsel, hheld, ?_⟩
  have hread : s.chip.readConditions s.bus = true := by
    simp [Chip.readConditions, hmatch, hsupply, hen, hsel, hheld]
  rw [Chip.answer, if_pos hread, if_pos hinv.address]

/-! ### Steps of the engine -/

/-- What stands behind a step with the engine running and no reset: the meaning of the live command, and what the chip makes of
the outputs. -/
theorem step_running {s t : State} (hinv : Inv s) (hrst : s.portsNow.rst = false) (hrun : s.eng.point ≠ .idle)
    (h : step s = .next t) :
    ∃ i u c, s.command.live = some i ∧ EngineOk i s ∧ exec i s = .next u ∧ u.chip.observe s.bus u.bus = .ok c ∧
      t = State.nextPorts { State.moveQueue s u with chip := c } := by
  obtain ⟨i, hlive, hok⟩ := hinv.engineOk hrun
  obtain ⟨hreset, -⟩ | ⟨-, u, c, hblock, hc, rfl⟩ := step_cases h
  · cases hrst.symm.trans hreset
  · exact ⟨i, u, c, hlive, hok, (blockStep_of_running hrun hlive).symm.trans hblock, hc, rfl⟩

theorem moved_bus (s u : State) (c : Chip) : (State.nextPorts { State.moveQueue s u with chip := c }).bus = u.bus := by
  simp

theorem moved_eng (s u : State) (c : Chip) : (State.nextPorts { State.moveQueue s u with chip := c }).eng = u.eng := by
  simp

/-- With the engine idle the outputs stand (60_exceptions.md R146). -/
theorem step_bus_of_idle {s t : State} (hidle : s.eng.point = .idle) (hrst : s.portsNow.rst = false)
    (h : step s = .next t) : t.bus = s.bus := by
  obtain ⟨hbus, -⟩ := frameOfByteSteps s t hidle hrst h
  exact hbus

/-! ### Data lines and the address -/

theorem Inv.progSel {s : State} (hinv : Inv s) :
    s.bus.progSel = 0x00#8 ∨ (s.eng.bit.toNat < 8 ∧ s.bus.progSel = onehot8 s.eng.bit.toNat) := by
  by_cases hidle : s.eng.point = .idle
  · obtain ⟨-, -, hsel, -⟩ := hinv.idle hidle
    exact .inl hsel
  obtain ⟨i, -, hok⟩ := hinv.engineOk hidle
  have hline := hok.line
  split at hline
  · exact .inl hline
  · next hstage =>
    have hresolves : s.eng.point.resolvesBit = true := by
      revert hstage
      cases s.eng.point <;> simp [Point.stageAt, Point.resolvesBit]
    obtain ⟨hlt, -⟩ := hok.bit hresolves
    exact .inr ⟨hlt, hline⟩

/-- The lines of the loop and the end of a pulse stand at the nominal level, not enabled. -/
theorem EngineOk.powered {i : Instr} {s : State} (hok : EngineOk i s)
    (hp : s.eng.point ∈ [.burnTest, .bitNext, .burnRelease]) : s.bus.supply = .nominal ∧ s.bus.en = false := by
  rw [hok.supply, hok.enable]
  simp only [List.mem_cons, List.not_mem_nil, or_false] at hp
  obtain hp | hp | hp := hp <;> rw [hp] <;> exact ⟨rfl, rfl⟩

/-- Settles O44: one line of the bit being resolved, or none; the lines change only where a pulse begins and where it ends. -/
theorem dataLines : Obligations.DataLines := by
  refine ⟨fun s hinv => hinv.progSel, fun s t hinv hrst h hne => ?_⟩
  by_cases hidle : s.eng.point = .idle
  · exact absurd (congrArg Bus.progSel (step_bus_of_idle hidle hrst h)) hne
  obtain ⟨i, u, c, hlive, hok, hexec, hc, rfl⟩ := step_running hinv hrst hidle h
  rw [moved_bus] at hne ⊢
  obtain ⟨hstart, -⟩ | ⟨-, -, rfl⟩ | ⟨-, -, hran⟩ := exec_cases hexec
  · exact absurd hstart hidle
  · exact absurd rfl hne
  · obtain hsame | ⟨hzero, hquiet, -⟩ | ⟨-, hp, hbus⟩ := hran.progSel
    · exact absurd hsame hne
    · have hline := hok.line
      rw [if_pos hquiet] at hline
      exact absurd (hzero.trans hline.symm) hne
    · obtain ⟨hsupply, hen⟩ := hok.powered hp
      rw [hbus]
      exact ⟨hen, by simp [hsupply], hen, by simp [hsupply]⟩

/-- At a loop head of a scan no line is driven, and the chip is at the nominal level. -/
theorem EngineOk.scanning {i : Instr} {s : State} (hok : EngineOk i s)
    (hp : s.eng.point ∈ [.scanFirst, .scanNext, .blankLoop]) : s.bus.supply = .nominal ∧ s.bus.progSel = 0x00#8 := by
  rw [hok.supply, hok.line]
  simp only [List.mem_cons, List.not_mem_nil, or_false] at hp
  obtain hp | hp | hp := hp <;> rw [hp] <;> exact ⟨rfl, rfl⟩

theorem profileSet_of_addressSet {p : Point} (h : p.addressSet = true) : p.profileSet = true := by
  revert h
  cases p <;> simp [Point.addressSet, Point.profileSet]

/-- Settles O45: the lines that write `abus` and `chip_sel`, one by one. -/
theorem addressStable : Obligations.AddressStable := by
  intro s t i hinv hrst hlive hrun h
  obtain ⟨j, u, c, hj, hok, hexec, hc, rfl⟩ := step_running hinv hrst hrun h
  cases hlive.symm.trans hj
  rw [moved_bus, moved_eng]
  obtain ⟨hidle, -⟩ | ⟨-, -, rfl⟩ | ⟨-, htmr, hran⟩ := exec_cases hexec
  · exact absurd hidle hrun
  · refine ⟨fun _ => ⟨fun _ _ => ⟨rfl, rfl⟩, fun hi hset => ⟨hok.cell hset, hok.profile (profileSet_of_addressSet hset) hi⟩⟩,
      fun _ _ => ⟨rfl, fun hne => absurd rfl hne⟩⟩
  · refine ⟨fun hscan => ⟨fun hselect hread => ⟨?_, hran.chipSel.resolve_right hselect⟩,
      fun hi hset => ⟨hok.cell hset, hok.profile (profileSet_of_addressSet hset) hi⟩⟩,
      fun hscan hselect => ⟨hran.chipSel.resolve_right hselect, fun hne => ?_⟩⟩
    · obtain hsame | hp | ⟨hp, -⟩ | ⟨hscans, -⟩ := hran.abus
      · exact hsame
      · exact absurd hp hselect
      · exact absurd hp hread
      · cases hscan.symm.trans hscans
    · obtain hsame | hp | ⟨-, hscans⟩ | ⟨-, hp, hnext⟩ := hran.abus
      · exact absurd hsame hne
      · exact absurd hp hselect
      · cases hscan.symm.trans hscans
      · obtain ⟨hsupply, hsel⟩ := hok.scanning hp
        exact ⟨hp, htmr, hnext, hsupply, hsel⟩

/-! ### Responses and cells -/

/-- Settles O46: only the last line of a command and the data line of `R` emit. -/
theorem responseAfterPowerDown : Obligations.ResponseAfterPowerDown := by
  intro s t hinv hrst hrun h hne
  obtain ⟨i, u, c, hlive, hok, hexec, hc, rfl⟩ := step_running hinv hrst hrun h
  have houtput : (State.nextPorts { State.moveQueue s u with chip := c }).output = u.output := moveQueue_output s u
  rw [houtput, State.output, State.output, exec_host hexec] at hne
  have hqueue : u.txq ≠ s.txq := fun hsame => hne (by rw [hsame])
  rw [moved_eng]
  obtain ⟨hidle, -⟩ | ⟨-, -, rfl⟩ | ⟨-, -, hran⟩ := exec_cases hexec
  · exact absurd hidle hrun
  · exact absurd rfl hqueue
  · obtain hsame | ⟨hend, rfl⟩ | ⟨hp, ⟨chip, rfl⟩, -⟩ := hran.txq
    · exact absurd hsame hqueue
    · have h := hok.engineAt hend
      exact .inl ⟨h.supply, h.enable, h.line, rfl⟩
    · exact .inr ⟨chip, hlive, hp⟩

theorem stageAt_eq_dropped {p : Point} (h : p.stageAt = .dropped) : p = .burnRelease := by
  revert h
  cases p <;> simp [Point.stageAt]

/-- A pulse is of `w`. -/
theorem program_of_pulse {i : Instr} (h : .burnRelease ∈ pointsOf i) :
    ∃ chip addr value, i = .program chip addr value := by
  cases i with
  | program chip addr value => exact ⟨chip, addr, value, rfl⟩
  | _ => simp [pointsOf] at h

section
variable {i : Instr} {s u : State} {c : Chip}

/-- Outside the end of a programming sequence what the chip sees changes no cell. -/
theorem observe_cells_of_ne_release (hok : EngineOk i s) (hp : s.eng.point ≠ .burnRelease) (hexec : exec i s = .next u)
    (hc : u.chip.observe s.bus u.bus = .ok c) : c.cells = s.chip.cells := by
  obtain ⟨d, hchip⟩ := exec_chip hexec
  rw [hchip] at hc
  obtain ⟨-, rfl⟩ | ⟨-, hstage, -, -⟩ | ⟨-, g, rfl⟩ := observe_cases hc
  · rfl
  · exact absurd (stageAt_eq_dropped (hok.stage.symm.trans hstage)) hp
  · rfl

/-- At the end of a programming sequence the chip burns (20_memory.md R51). -/
theorem observe_release (hok : EngineOk i s) (hp : s.eng.point = .burnRelease) (hexec : exec i s = .next u)
    (hc : u.chip.observe s.bus u.bus = .ok c) : c = (s.chip.burn s.bus).toStage .quiet := by
  have h := hok.engineAt hp
  obtain ⟨chip, addr, value, rfl⟩ := program_of_pulse h.point
  have hrun : s.eng.point ≠ .idle := by simp [hp]
  rw [exec_of_line _ hrun (h.timer rfl), hp] at hexec
  cases hexec
  have hstage : s.chip.stage = .dropped := h.stage
  have hline : s.bus.progSel = onehot8 s.eng.bit.toNat := h.line
  obtain ⟨hbit, -⟩ := h.bit rfl
  have hne : { s.bus with progSel := 0x00#8 } ≠ s.bus := setProgSel_ne (hline ▸ onehot8_ne_zero _ hbit)
  have hburn : s.chip.observe s.bus { s.bus with progSel := 0x00#8 } = .ok ((s.chip.burn s.bus).toStage .quiet) := by
    rw [observe_advance hne (by simp [hstage]) (by simp [Stage.allows, hstage]), Chip.advance, hstage]
  exact Except.ok.inj (hc.symm.trans hburn)

end

/-- Settles O47: the chip burns at the end of a programming sequence of `w`, and there only. -/
theorem cellsOnlyByPulse : Obligations.CellsOnlyByPulse := by
  intro s t hinv hrst h
  by_cases hidle : s.eng.point = .idle
  · obtain ⟨-, hcells, -⟩ := frameOfByteSteps s t hidle hrst h
    exact ⟨fun _ => hcells, fun a _ => by rw [hcells], fun hp => by simp [hidle] at hp⟩
  obtain ⟨i, u, c, hlive, hok, hexec, hc, rfl⟩ := step_running hinv hrst hidle h
  show (s.eng.point ≠ .burnRelease → c.cells = _) ∧ (∀ a, a ≠ s.bus.abus.toNat → readCell c.cells a = _) ∧
    (s.eng.point = .burnRelease → _ ∧ readCell c.cells _ = _)
  by_cases hp : s.eng.point = .burnRelease
  · have hat := hok.engineAt hp
    obtain ⟨chip, addr, value, rfl⟩ := program_of_pulse hat.point
    cases observe_release hok hp hexec hc
    have hread := fun a => s.chip.burn_readCell s.bus hinv.cells a
    have hline : s.bus.progSel = onehot8 s.eng.bit.toNat := hat.line
    refine ⟨fun hne => absurd hp hne, fun a ha => (hread a).trans (if_neg ha), fun _ =>
      ⟨⟨chip, addr, value, hlive, hat.cell rfl⟩, ?_⟩⟩
    rw [← hline]
    exact (hread _).trans (if_pos rfl)
  · have hcells := observe_cells_of_ne_release hok hp hexec hc
    exact ⟨fun _ => hcells, fun a _ => by rw [hcells], fun h => absurd h hp⟩

end Sys2Proof.Machine

/-! SUPPORT. The engine's cycles counted (42_programming_engine.md R126, R127): where a running command has come to after a
number of cycles, with its engine, its outputs, its chip and the bytes it has emitted; and the waits and the power, pulse and
verify sequences followed so (R130, R134, R135). -/

namespace Sys2Proof.Machine

/-! ### A running command after a number of cycles -/

/-- `t`, but for its engine, its outputs and its chip, is as the engine's cycles since `s` leave the state, the bytes `out` having
been emitted. -/
structure State.keepsOn (s : State) (out : List Byte) (t : State) : Prop where
  noReset : t.noReset
  st : t.st = s.st
  command : t.command = s.command
  keeps : t.discard = s.discard
  lexer : t.lex = s.lex
  busy : t.busy = s.busy
  cause : t.errCause = s.errCause
  stream : t.host.rx = s.host.rx
  output : t.output = s.output ++ out

/-- After `k` cycles the engine of the command running in `s` is `e`, the outputs are `b`, the chip is `c`, and `out` has been
emitted. -/
def State.isAt (s : State) (k : Nat) (e : Engine) (b : Bus) (c : Chip) (out : List Byte) : Prop :=
  ∃ t, runs k s = .next (t.standing e b c) ∧ s.keepsOn out t

theorem standing_self {s : State} {e : Engine} {b : Bus} {c : Chip} (he : s.eng = e) (hb : s.bus = b) (hc : s.chip = c) :
    s.standing e b c = s := by
  subst he hb hc
  rfl

/-- While the engine runs, a byte taken from the queue leaves `busy` (10_state.md R35). -/
theorem moveQueue_busy_of_running (s : State) {u : State} (hrun : u.eng.point ≠ .idle) :
    (State.moveQueue s u).busy = u.busy := by
  unfold State.moveQueue
  split
  · simp [State.settleBusy, State.engineIdle, hrun]
  · rfl

theorem State.isAt.zero {s : State} (h : s.noReset) : s.isAt 0 s.eng s.bus s.chip [] :=
  ⟨s, rfl, h, rfl, rfl, rfl, rfl, rfl, rfl, rfl, (List.append_nil _).symm⟩

section
variable {s : State} {i : Instr} {k : Nat} {e e' : Engine} {b b' : Bus} {c c₁ c' : Chip} {out new : List Byte}

/-- A cycle of the command that emits `new`, and what the chip makes of the outputs. -/
theorem State.isAt.emits (h : s.isAt k e b c out) (hlive : s.command.live = some i) (hrun : e.point ≠ .idle)
    (hrun' : e'.point ≠ .idle) (hobserve : c₁.observe b b' = .ok c')
    (hexec : ∀ t : State, exec i (t.standing e b c) = .next ((t.standing e' b' c₁).emit new)) :
    s.isAt (k + 1) e' b' c' (out ++ new) := by
  obtain ⟨t, hk, ht⟩ := h
  have hblock := (blockStep_of_running (s := t.standing e b c) hrun (ht.command ▸ hlive)).trans (hexec t)
  have hstep := step_eq (noReset_now (s := t.standing e b c) ht.noReset) hblock hobserve
  refine ⟨_, (runs_snoc hk hstep).trans (congrArg _ (standing_self ?_ ?_ rfl).symm), ?_⟩
  · exact moveQueue_eng _ _
  · exact moveQueue_bus _ _
  exact
    { noReset := noReset_tail (s := t) ht.noReset (congrArg List.tail (moveQueue_ports _ _))
      st := (moveQueue_st _ _).trans ht.st
      command := (moveQueue_command _ _).trans ht.command
      keeps := (moveQueue_discard _ _).trans ht.keeps
      lexer := (moveQueue_lex _ _).trans ht.lexer
      busy := (moveQueue_busy_of_running _ hrun').trans ht.busy
      cause := (moveQueue_errCause _ _).trans ht.cause
      stream := (moveQueue_rx _ _).trans ht.stream
      output := by
        refine (moveQueue_output _ _).trans ?_
        rw [← List.append_assoc, ← ht.output]
        exact (List.append_assoc _ _ _).symm }

/-- A cycle of the command that emits nothing. -/
theorem State.isAt.step (h : s.isAt k e b c out) (hlive : s.command.live = some i) (hrun : e.point ≠ .idle)
    (hrun' : e'.point ≠ .idle) (hobserve : c₁.observe b b' = .ok c')
    (hexec : ∀ t : State, exec i (t.standing e b c) = .next (t.standing e' b' c₁)) :
    s.isAt (k + 1) e' b' c' out := by
  have hnext := h.emits (new := []) hlive hrun hrun' hobserve fun t => by
    rw [hexec t, State.emit]
    exact congrArg _ (by simp)
  rwa [List.append_nil] at hnext

/-- A line of the command, no wait going on. -/
theorem exec_standing (i : Instr) {p : Point} (hp : p ≠ .idle) (t : State) :
    exec i (t.standing (e.lineAt p) b c) = lineOf i p (t.standing (e.lineAt p) b c) :=
  exec_of_line i hp rfl

/-- A line of the command that emits nothing, no wait going on. -/
theorem State.isAt.line {p : Point} (h : s.isAt k (e.lineAt p) b c out) (hlive : s.command.live = some i) (hp : p ≠ .idle)
    (hrun : e'.point ≠ .idle) (hobserve : c₁.observe b b' = .ok c')
    (hline : ∀ t : State, lineOf i p (t.standing (e.lineAt p) b c) = .next (t.standing e' b' c₁)) :
    s.isAt (k + 1) e' b' c' out :=
  h.step hlive hp hrun hobserve fun t => (exec_standing i hp t).trans (hline t)

/-- Part of a `Wait`: the timer counts, the chip sees the outputs stand, and nothing else happens (R127). -/
theorem State.isAt.waits {m : Nat} (hlive : s.command.live = some i) (hrun : e.point ≠ .idle) (hm : m < 2 ^ 32) :
    ∀ (j : Nat), j ≤ m → s.isAt k { e with tmr := BitVec.ofNat 32 m } b c out →
      s.isAt (k + j) { e with tmr := BitVec.ofNat 32 (m - j) } b { c with held := c.held + j } out
  | 0, _, h => h
  | j + 1, hj, h => by
    have hat := State.isAt.waits hlive hrun hm j (by omega) h
    obtain ⟨r, hr⟩ : ∃ r, m - j = r + 1 := ⟨m - j - 1, by omega⟩
    have htmr : BitVec.ofNat 32 (r + 1) ≠ 0#32 := by
      rw [Ne, ← BitVec.toNat_inj, BitVec.toNat_ofNat, Nat.mod_eq_of_lt (by omega)]
      exact Nat.succ_ne_zero r
    have hcount : BitVec.ofNat 32 (r + 1) - 1#32 = BitVec.ofNat 32 (m - (j + 1)) := by
      rw [show m - (j + 1) = r by omega, BitVec.ofNat_add, BitVec.add_sub_cancel]
    rw [hr] at hat
    refine hat.step (c₁ := { c with held := c.held + j }) hlive hrun hrun observe_same fun t => ?_
    rw [exec_of_waiting i hrun htmr, ← hcount]
    rfl

/-- The last line: the response is queued and the command is over (41_commands.md R115 (c), (d)). -/
theorem State.isAt.ends (h : s.isAt k e b c out) (hlive : s.command.live = some i) (hp : e.point = .respond)
    (htmr : e.tmr = 0#32) :
    ∃ u, runs (k + 1) s = .next u ∧ u.noReset ∧ u.st = .ready ∧ u.command = emptyCommand ∧ u.lex = s.lex ∧
      u.discard = s.discard ∧ u.errCause = s.errCause ∧ u.host.rx = s.host.rx ∧
      u.output = s.output ++ (out ++ (payloadOf i e ++ okTrailer)) ∧ u.eng = { e with point := .idle } ∧ u.bus = b ∧
      u.chip = c.unchanged := by
  obtain ⟨t, hk, ht⟩ := h
  have hrun : e.point ≠ .idle := by simp [hp]
  have hexec := exec_of_respond i (s := t.standing e b c) hp htmr
  have hblock := (blockStep_of_running (s := t.standing e b c) hrun (ht.command ▸ hlive)).trans hexec
  have hstep := step_eq (noReset_now (s := t.standing e b c) ht.noReset) hblock (observe_same (c := c) (b := b))
  refine ⟨_, runs_snoc hk hstep, noReset_tail (s := t) ht.noReset (congrArg List.tail (moveQueue_ports _ _)),
    moveQueue_st _ _, moveQueue_command _ _, (moveQueue_lex _ _).trans ht.lexer, (moveQueue_discard _ _).trans ht.keeps,
    (moveQueue_errCause _ _).trans ht.cause, (moveQueue_rx _ _).trans ht.stream, ?_, moveQueue_eng _ _,
    moveQueue_bus _ _, rfl⟩
  refine (moveQueue_output _ _).trans ?_
  rw [← List.append_assoc, ← ht.output]
  exact (List.append_assoc _ _ _).symm

end

/-- Settles O26: each cycle of a wait is a tick of the timer. -/
theorem waitCounts : Obligations.WaitCounts := by
  refine ⟨fun n s hn hlt => ?_, fun s k hinv hnoReset hrun hk => ?_⟩
  · rw [State.wait_eng_tmr, BitVec.toNat_ofNat, Nat.mod_eq_of_lt (by omega)]
  · obtain ⟨i, hlive, -⟩ := hinv.engineOk hrun
    have hstart : s.isAt 0 { s.eng with tmr := BitVec.ofNat 32 s.eng.tmr.toNat } s.bus s.chip [] := by
      rw [BitVec.ofNat_toNat, BitVec.setWidth_eq]
      exact .zero hnoReset
    obtain ⟨t, ht, hkeeps⟩ := State.isAt.waits hlive hrun s.eng.tmr.isLt k hk hstart
    rw [Nat.zero_add] at ht
    exact ⟨_, ht, rfl, rfl, hkeeps.st, hkeeps.command, hkeeps.stream, hkeeps.output.trans (List.append_nil _), rfl⟩

/-! ### The power sequence -/

theorem lineAt_self {e : Engine} {p : Point} (hp : e.point = p) (htmr : e.tmr = 0#32) : e.lineAt p = e := by
  subst hp
  rw [Engine.lineAt, ← htmr]

section
variable {i : Instr}

theorem lineOf_countCells (hscan : scans i = true) (t : State) : lineOf i .countCells t = .next (t.goto .selectChip) := by
  cases i with
  | readAll => rfl
  | blankCheck => rfl
  | _ => cases hscan

theorem lineOf_selectChip (hi : i ≠ .version) (t : State) :
    lineOf i .selectChip t = .next (t.selectChip (profileOf i)) := by
  cases i with
  | version => exact absurd rfl hi
  | _ => rfl

theorem lineOf_powerOn (hi : i ≠ .version) (t : State) : lineOf i .powerOn t = .next t.powerOn := by
  cases i with
  | version => exact absurd rfl hi
  | _ => rfl

theorem lineOf_pathOn (hi : i ≠ .version) (t : State) : lineOf i .pathOn t = .next (t.openPath (afterPath i)) := by
  cases i with
  | version => exact absurd rfl hi
  | _ => rfl

theorem lineOf_powerOff (hi : i ≠ .version) (t : State) : lineOf i .powerOff t = .next t.powerOff := by
  cases i with
  | version => exact absurd rfl hi
  | _ => rfl

theorem afterPath_ne_idle (hi : i ≠ .version) : afterPath i ≠ .idle := by
  obtain ⟨hmem, -⟩ := afterPath_spec hi
  exact point_ne_idle _ hmem

/-- The outputs after the first line of `PowerUp`, before the supply is on (R130). -/
def selectedBus (chip : Profile) : Bus :=
  { chipSel := chip, abus := 0#9, progSel := 0x00#8, supply := .off, en := false }

section
variable {s : State} {k : Nat} {e : Engine} {b : Bus} {c : Chip} {out : List Byte}

theorem State.isAt.selectsChip (h : s.isAt k (e.lineAt .selectChip) b c out) (hlive : s.command.live = some i)
    (hi : i ≠ .version) (hoff : b.supply = .off) (hquiet : c.stage = .quiet) :
    ∃ held, s.isAt (k + 1) (e.lineAt .powerOn) (selectedBus (profileOf i)) { c with held := held } out := by
  refine ⟨_, h.line (c₁ := c) hlive nofun nofun (observe_quiet_eq hquiet rfl) fun t => ?_⟩
  rw [lineOf_selectChip hi]
  show Host.Outcome.next (t.standing _ { selectedBus (profileOf i) with supply := b.supply } c) = _
  rw [hoff]
  rfl

theorem State.isAt.powersOn {chip : Profile} (h : s.isAt k (e.lineAt .powerOn) (selectedBus chip) c out)
    (hlive : s.command.live = some i) (hi : i ≠ .version) (hquiet : c.stage = .quiet) {j : Nat} (hj : j < Config.nPwrup) :
    s.isAt (k + 1 + j) { e.lineAt .pathOn with tmr := BitVec.ofNat 32 (Config.nPwrup - 1 - j) } (poweredBus chip 0#9 false)
      { c with held := 1 + j } out := by
  have hon : s.isAt (k + 1) { e.lineAt .pathOn with tmr := BitVec.ofNat 32 (Config.nPwrup - 1) }
      (poweredBus chip 0#9 false) { c with held := 1 } out := by
    refine h.line (c₁ := c) hlive nofun nofun ?_ fun t => ?_
    · rw [observe_quiet_eq hquiet rfl, if_neg (by simp [poweredBus, selectedBus])]
    · rw [lineOf_powerOn hi]
      rfl
  exact State.isAt.waits (e := e.lineAt .pathOn) hlive (by simp) nPwrup_sub_one_lt j (by omega) hon

theorem State.isAt.opensPath {chip : Profile} (h : s.isAt k (e.lineAt .pathOn) (poweredBus chip 0#9 false) c out)
    (hlive : s.command.live = some i) (hi : i ≠ .version) (hquiet : c.stage = .quiet) :
    s.isAt (k + 1) (e.lineAt (afterPath i)) (poweredBus chip 0#9 true) { c with held := 1 } out := by
  refine h.line (c₁ := c) hlive nofun (afterPath_ne_idle hi) ?_ fun t => ?_
  · rw [observe_quiet_eq hquiet rfl, if_neg (by simp [poweredBus])]
  · rw [lineOf_pathOn hi]
    rfl

theorem State.isAt.bus (h : s.isAt k e b c out) : ∃ t, runs k s = .next t ∧ t.bus = b := by
  obtain ⟨t, ht, -⟩ := h
  exact ⟨_, ht, rfl⟩

end

end

/-- Settles O39: the three lines of the power sequence, and the wait between the last two. -/
theorem powerUpTrace : Obligations.PowerUpTrace := by
  intro s i hinv hnoReset hlive hp
  obtain ⟨j, hj, hok⟩ := hinv.engineOk (by simp [hp])
  cases hlive.symm.trans hj
  have hat := hok.engineAt hp
  have hi : i ≠ .version := by
    rintro rfl
    have := hat.point
    simp [pointsOf] at this
  have hquiet : s.chip.stage = .quiet := hat.stage
  have hstart : s.isAt 0 (s.eng.lineAt .selectChip) s.bus s.chip [] := by
    rw [lineAt_self hp (hat.timer rfl)]
    exact .zero hnoReset
  obtain ⟨held, hselected⟩ := hstart.selectsChip hlive hi hat.supply hquiet
  have hpowered := fun {j} hj => hselected.powersOn (j := j) hlive hi hquiet hj
  have hpos := nPwrup_pos
  refine ⟨hselected.bus, fun k h2 hk => ?_, ?_⟩
  · have h := (hpowered (j := k - 2) (by omega)).bus
    rwa [show 0 + 1 + 1 + (k - 2) = k by omega] at h
  · have hlast := hpowered (j := Config.nPwrup - 1) (by omega)
    rw [Nat.sub_self] at hlast
    have h := (State.isAt.opensPath (e := s.eng) hlast hlive hi hquiet).bus
    rwa [show 0 + 1 + 1 + (Config.nPwrup - 1) + 1 = Config.nPwrup + 2 by omega] at h

/-! ### The pulse -/

section
variable {s : State} {i : Instr} {k : Nat} {e : Engine} {b : Bus} {c : Chip} {out : List Byte}

/-- `supply <- Program` and the settling time after it. -/
theorem State.isAt.settles (h : s.isAt k (e.lineAt .burnRaise) b c out) (hlive : s.command.live = some i)
    (hmode : programs i = true) (hsupply : b.supply = .nominal) (hstage : c.stage = .selected) {j : Nat}
    (hj : j < Config.nSettle) :
    s.isAt (k + 1 + j) { e.lineAt .burnEnable with tmr := BitVec.ofNat 32 (Config.nSettle - 1 - j) }
      { b with supply := .program } { c with held := 1 + j, stage := .settling } out := by
  obtain ⟨chip, addr, value, rfl⟩ := programs_iff.mp hmode
  have hobserve : c.observe b { b with supply := .program } = .ok (c.toStage .settling) := by
    rw [observe_advance (setSupply_ne (hsupply ▸ nofun)) (by simp [hstage]) (by simp [Stage.allows, hstage]),
      Chip.advance, hstage]
  have hraised : s.isAt (k + 1) { e.lineAt .burnEnable with tmr := BitVec.ofNat 32 (Config.nSettle - 1) }
      { b with supply := .program } (c.toStage .settling) out :=
    h.line hlive nofun nofun hobserve fun _ => rfl
  exact State.isAt.waits (e := e.lineAt .burnEnable) hlive (by simp) nSettle_sub_one_lt j (by omega) hraised

/-- `en <- 1` after `N_SETTLE` cycles, and the time of the pulse. -/
theorem State.isAt.pulses (h : s.isAt k (e.lineAt .burnEnable) b c out) (hlive : s.command.live = some i)
    (hmode : programs i = true) (hen : b.en = false) (hstage : c.stage = .settling) (hheld : c.held = Config.nSettle)
    {j : Nat} (hj : j < Config.nPulse) :
    s.isAt (k + 1 + j) { e.lineAt .burnDisable with tmr := BitVec.ofNat 32 (Config.nPulse - 1 - j) }
      { b with en := true } { c with held := 1 + j, stage := .pulsing } out := by
  obtain ⟨chip, addr, value, rfl⟩ := programs_iff.mp hmode
  have hobserve : c.observe b { b with en := true } = .ok (c.toStage .pulsing) := by
    rw [observe_advance (setEn_ne (hen ▸ nofun)) (by simp [hstage]) (by simp [Stage.allows, hstage, hheld]),
      Chip.advance, hstage]
  have henabled : s.isAt (k + 1) { e.lineAt .burnDisable with tmr := BitVec.ofNat 32 (Config.nPulse - 1) }
      { b with en := true } (c.toStage .pulsing) out :=
    h.line hlive nofun nofun hobserve fun _ => rfl
  exact State.isAt.waits (e := e.lineAt .burnDisable) hlive (by simp) nPulse_sub_one_lt j (by omega) henabled

/-- `en <- 0` after `N_PULSE` cycles. -/
theorem State.isAt.disables (h : s.isAt k (e.lineAt .burnDisable) b c out) (hlive : s.command.live = some i)
    (hmode : programs i = true) (hen : b.en = true) (hstage : c.stage = .pulsing) (hheld : c.held = Config.nPulse) :
    s.isAt (k + 1) (e.lineAt .burnDrop) { b with en := false } (c.toStage .pulsed) out := by
  obtain ⟨chip, addr, value, rfl⟩ := programs_iff.mp hmode
  refine h.line hlive nofun nofun ?_ fun _ => rfl
  rw [observe_advance (setEn_ne (hen ▸ nofun)) (by simp [hstage]) (by simp [Stage.allows, hstage, hheld]),
    Chip.advance, hstage]

/-- `supply <- Nominal`. -/
theorem State.isAt.drops (h : s.isAt k (e.lineAt .burnDrop) b c out) (hlive : s.command.live = some i)
    (hmode : programs i = true) (hsupply : b.supply = .program) (hstage : c.stage = .pulsed) :
    s.isAt (k + 1) (e.lineAt .burnRelease) { b with supply := .nominal } (c.toStage .dropped) out := by
  obtain ⟨chip, addr, value, rfl⟩ := programs_iff.mp hmode
  refine h.line hlive nofun nofun ?_ fun _ => rfl
  rw [observe_advance (setSupply_ne (hsupply ▸ nofun)) (by simp [hstage]) (by simp [Stage.allows, hstage]),
    Chip.advance, hstage]

/-- `prog_sel <- 0x00`: the chip burns (20_memory.md R51). -/
theorem State.isAt.releases (h : s.isAt k (e.lineAt .burnRelease) b c out) (hlive : s.command.live = some i)
    (hmode : programs i = true) (hline : b.progSel ≠ 0x00#8) (hstage : c.stage = .dropped) :
    s.isAt (k + 1) (e.lineAt .verifyEnable) { b with progSel := 0x00#8 } ((c.burn b).toStage .quiet) out := by
  obtain ⟨chip, addr, value, rfl⟩ := programs_iff.mp hmode
  refine h.line hlive nofun nofun ?_ fun _ => rfl
  rw [observe_advance (setProgSel_ne hline) (by simp [hstage]) (by simp [Stage.allows, hstage]), Chip.advance, hstage]

end

theorem lastOfWait {n : Nat} (h : 1 ≤ n) : 1 + (n - 1) = n := Nat.add_sub_cancel' h

section
variable {s : State} {i : Instr} {k : Nat} {e : Engine} {c : Chip} {out : List Byte} {chip : Profile} {addr : CellAddr}
  {n : Nat}

/-- The pulse up to the line that takes its enable back. -/
theorem State.isAt.pulsed (h : s.isAt k (e.lineAt .burnRaise) (drivenBus chip addr n) c out)
    (hlive : s.command.live = some i) (hmode : programs i = true) (hstage : c.stage = .selected) {j : Nat}
    (hj : j < Config.nPulse) :
    s.isAt (k + Config.nSettle + 1 + j) { e.lineAt .burnDisable with tmr := BitVec.ofNat 32 (Config.nPulse - 1 - j) }
      { drivenBus chip addr n with supply := .program, en := true } { c with held := 1 + j, stage := .pulsing } out := by
  have hpos := nSettle_pos
  have hsettled := h.settles hlive hmode rfl hstage (j := Config.nSettle - 1) (by omega)
  rw [Nat.sub_self, lastOfWait hpos, Nat.add_assoc k, lastOfWait hpos] at hsettled
  exact State.isAt.pulses (e := e) hsettled hlive hmode rfl rfl rfl hj

/-- The pulse up to the line that drops the level, and after it. -/
theorem State.isAt.dropped (h : s.isAt k (e.lineAt .burnRaise) (drivenBus chip addr n) c out)
    (hlive : s.command.live = some i) (hmode : programs i = true) (hstage : c.stage = .selected) :
    s.isAt (k + Config.nSettle + Config.nPulse + 1) (e.lineAt .burnDrop) { drivenBus chip addr n with supply := .program }
      (c.toStage .pulsed) out ∧
    s.isAt (k + Config.nSettle + Config.nPulse + 2) (e.lineAt .burnRelease) (drivenBus chip addr n) (c.toStage .dropped)
      out := by
  have hpos := nPulse_pos
  have hpulsed := h.pulsed hlive hmode hstage (j := Config.nPulse - 1) (by omega)
  rw [Nat.sub_self, lastOfWait hpos, Nat.add_assoc (k + _), lastOfWait hpos] at hpulsed
  have hdisabled := State.isAt.disables (e := e) hpulsed hlive hmode rfl rfl rfl
  exact ⟨hdisabled, hdisabled.drops hlive hmode rfl rfl⟩

/-- The whole pulse: the chip burns the driven bit. -/
theorem State.isAt.burns (h : s.isAt k (e.lineAt .burnRaise) (drivenBus chip addr n) c out)
    (hlive : s.command.live = some i) (hmode : programs i = true) (hstage : c.stage = .selected) (hn : n < 8) :
    s.isAt (k + Config.nSettle + Config.nPulse + 3) (e.lineAt .verifyEnable) (poweredBus chip addr false)
      ((c.burn (drivenBus chip addr n)).toStage .quiet) out := by
  obtain ⟨-, hdropped⟩ := h.dropped hlive hmode hstage
  exact hdropped.releases hlive hmode (onehot8_ne_zero n hn) rfl

end

/-- The outputs of the programming sequence that has selected a data line. -/
theorem EngineOk.bus_eq_drivenBus {i : Instr} {s : State} (hok : EngineOk i s) (hp : s.eng.point = .burnRaise) :
    s.bus = drivenBus s.bus.chipSel s.bus.abus s.eng.bit.toNat := by
  have hat := hok.engineAt hp
  have hline : s.bus.progSel = onehot8 s.eng.bit.toNat := hat.line
  have hsupply : s.bus.supply = .nominal := hat.supply
  have hen : s.bus.en = false := hat.enable
  rw [drivenBus, poweredBus, ← hline, ← hsupply, ← hen]

/-- The pulse's outputs, line by line. -/
theorem pulseBus_cases {b : Bus} {k : Nat} (hk : k ≤ Config.nSettle + Config.nPulse + 2) :
    (k = 0 ∧ pulseBus b k = b) ∨
    (∃ j < Config.nSettle, k = 1 + j ∧ pulseBus b k = { b with supply := .program }) ∨
    (∃ j < Config.nPulse, k = Config.nSettle + 1 + j ∧ pulseBus b k = { b with supply := .program, en := true }) ∨
    (k = Config.nSettle + Config.nPulse + 1 ∧ pulseBus b k = { b with supply := .program }) ∨
    (k = Config.nSettle + Config.nPulse + 2 ∧ pulseBus b k = b) := by
  unfold pulseBus
  split_ifs with h0 hsettle hpulse hdrop hrelease
  · exact .inl ⟨h0, rfl⟩
  · exact .inr (.inl ⟨k - 1, by omega, by omega, rfl⟩)
  · exact .inr (.inr (.inl ⟨k - Config.nSettle - 1, by omega, by omega, rfl⟩))
  · exact .inr (.inr (.inr (.inl ⟨hdrop, rfl⟩)))
  · exact .inr (.inr (.inr (.inr ⟨hrelease, rfl⟩)))
  · omega

theorem pulseBus_last (b : Bus) :
    pulseBus b (Config.nSettle + Config.nPulse + 3) = { b with progSel := 0x00#8 } := by
  unfold pulseBus
  rw [if_neg (by omega), if_neg (by omega), if_neg (by omega), if_neg (by omega), if_neg (by omega)]

theorem nPulse_bounds : Config.nPulseMin ≤ Config.nPulse ∧ Config.nPulse ≤ Config.nPulseMax := by
  have hmin := Config.pulseMinFree.isLt
  have hmod : Config.pulseFree % (Config.pulseSpanFree + 2) < Config.pulseSpanFree + 2 := Nat.mod_lt _ (Nat.succ_pos _)
  simp only [Config.nPulse, Config.nPulseMin, Config.nPulseMax, Config.maxDelay]
  omega

theorem State.isAt.bus_cells {s : State} {k : Nat} {e : Engine} {b b' : Bus} {c : Chip} {out : List Byte} {m : Memory}
    (h : s.isAt k e b c out) (hb : b' = b) (hm : c.cells = m) :
    ∃ t, runs k s = .next t ∧ t.bus = b' ∧ t.chip.cells = m := by
  obtain ⟨t, ht, -⟩ := h
  exact ⟨_, ht, hb.symm, hm⟩

/-- Settles O40: the lines of the pulse and the waits between them, one after another. -/
theorem pulseTrace : Obligations.PulseTrace := by
  intro s hinv hnoReset hp
  obtain ⟨i, hlive, hok⟩ := hinv.engineOk (by simp [hp])
  have hat := hok.engineAt hp
  have hmode : programs i = true := by
    cases i with
    | program => rfl
    | _ => exact absurd hat.point (by simp [pointsOf])
  have hstage : s.chip.stage = .selected := hat.stage
  obtain ⟨hbit, -⟩ := hat.bit rfl
  have hbus := hok.bus_eq_drivenBus hp
  have hstart : s.isAt 0 (s.eng.lineAt .burnRaise) s.bus s.chip [] := by
    rw [lineAt_self hp (hat.timer rfl)]
    exact .zero hnoReset
  have hdriven := hstart
  rw [hbus] at hdriven
  refine ⟨hat.line, hat.supply, hat.enable, nPulse_bounds.1, nPulse_bounds.2, fun k hk => ?_, ?_⟩
  · obtain ⟨rfl, hk⟩ | ⟨j, hj, rfl, hk⟩ | ⟨j, hj, rfl, hk⟩ | ⟨rfl, hk⟩ | ⟨rfl, hk⟩ := pulseBus_cases (b := s.bus) hk
    · exact hstart.bus_cells hk rfl
    · have h := hstart.settles hlive hmode hat.supply hstage hj
      rw [Nat.zero_add] at h
      exact h.bus_cells hk rfl
    · have h := hdriven.pulsed hlive hmode hstage hj
      rw [Nat.zero_add, ← hbus] at h
      exact h.bus_cells hk rfl
    · obtain ⟨h, -⟩ := hdriven.dropped hlive hmode hstage
      rw [Nat.zero_add, ← hbus] at h
      exact h.bus_cells hk rfl
    · obtain ⟨-, h⟩ := hdriven.dropped hlive hmode hstage
      rw [Nat.zero_add, ← hbus] at h
      exact h.bus_cells hk rfl
  · have h := hdriven.burns hlive hmode hstage hbit
    rw [Nat.zero_add, ← hbus] at h
    obtain ⟨t, ht, -⟩ := h
    refine ⟨_, ht, ?_, rfl, fun a => ?_⟩
    · rw [pulseBus_last, hbus]
      rfl
    · refine (s.chip.burn_readCell s.bus hinv.cells a).trans ?_
      rw [show s.bus.progSel = onehot8 s.eng.bit.toNat from hat.line]
      by_cases ha : a = s.bus.abus.toNat
      · subst ha
        rw [if_pos rfl]
        simp only [true_and]
      · rw [if_neg ha, if_neg fun h => ha h.1]

/-! ### The verify -/

section
variable {s : State} {i : Instr} {k : Nat} {e : Engine} {c : Chip} {out : List Byte} {chip : Profile} {addr : CellAddr}

/-- `en <- 1` of the verify, and the read time after it. -/
theorem State.isAt.verifies (h : s.isAt k (e.lineAt .verifyEnable) (poweredBus chip addr false) c out)
    (hlive : s.command.live = some i) (hmode : programs i = true) (hquiet : c.stage = .quiet) {j : Nat}
    (hj : j < Config.nRead) :
    s.isAt (k + 1 + j) { e.lineAt .verifySample with tmr := BitVec.ofNat 32 (Config.nRead - 1 - j) }
      (poweredBus chip addr true) { c with held := 1 + j } out := by
  obtain ⟨_, _, _, rfl⟩ := programs_iff.mp hmode
  have henabled : s.isAt (k + 1) { e.lineAt .verifySample with tmr := BitVec.ofNat 32 (Config.nRead - 1) }
      (poweredBus chip addr true) { c with held := 1 } out := by
    refine h.line (c₁ := c) hlive nofun nofun ?_ fun _ => rfl
    rw [observe_quiet_eq hquiet rfl, if_neg (by simp [poweredBus])]
  exact State.isAt.waits (e := e.lineAt .verifySample) hlive (by simp) nRead_sub_one_lt j (by omega) henabled

/-- The sample of the verify, and the cooldown after it: `ok` is the bit of the cell (R134, R136). -/
theorem State.isAt.verified (h : s.isAt k (e.lineAt .verifyEnable) (poweredBus chip addr false) c out)
    (hlive : s.command.live = some i) (hmode : programs i = true) (hquiet : c.stage = .quiet)
    (hmatch : c.socket.matches chip = true) (haddr : addrInRange chip addr = true) {j : Nat} (hj : j < Config.nCool) :
    s.isAt (k + Config.nRead + 1 + j)
      { { e with ok := (readCell c.cells addr.toNat).getLsbD e.bit.toNat }.lineAt .verifyTest with
        tmr := BitVec.ofNat 32 (Config.nCool - 1 - j) }
      (poweredBus chip addr false) { c with held := 1 + j } out := by
  have hpos := nRead_pos
  have hread := h.verifies hlive hmode hquiet (j := Config.nRead - 1) (by omega)
  rw [Nat.sub_self, lastOfWait hpos, Nat.add_assoc k, lastOfWait hpos] at hread
  obtain ⟨_, _, _, rfl⟩ := programs_iff.mp hmode
  have hsampled : s.isAt (k + Config.nRead + 1)
      { { e with ok := (readCell c.cells addr.toNat).getLsbD e.bit.toNat }.lineAt .verifyTest with
        tmr := BitVec.ofNat 32 (Config.nCool - 1) }
      (poweredBus chip addr false) { c with held := 1 } out := by
    refine State.isAt.line (e := e) (p := .verifySample) (c₁ := { c with held := Config.nRead }) hread hlive nofun nofun ?_
      fun t => ?_
    · rw [observe_quiet_eq (c := { c with held := Config.nRead }) hquiet rfl, if_neg (by simp [poweredBus])]
    · show State.sampleBus _ State.takeVerify = _
      rw [sampleBus_good (readConditions_poweredBus (c := { c with held := Config.nRead }) hmatch le_rfl) haddr]
      rfl
  exact State.isAt.waits (e := { e with ok := (readCell c.cells addr.toNat).getLsbD e.bit.toNat }.lineAt .verifyTest)
    hlive (by simp) nCool_sub_one_lt j (by omega) hsampled

end

/-- Settles O41: the verify's enable with its wait, and its sample with the cooldown. -/
theorem verifyTrace : Obligations.VerifyTrace := by
  intro s hinv hnoReset hp hmatch
  obtain ⟨i, hlive, hok⟩ := hinv.engineOk (by simp [hp])
  have hat := hok.engineAt hp
  have hmode : programs i = true := by
    cases i with
    | program => rfl
    | _ => exact absurd hat.point (by simp [pointsOf])
  have hquiet : s.chip.stage = .quiet := hat.stage
  have hen : s.bus.en = false := hat.enable
  have hsupply : s.bus.supply = .nominal := hat.supply
  have hsel : s.bus.progSel = 0x00#8 := hat.line
  have hbus : s.bus = poweredBus s.bus.chipSel s.bus.abus false := by
    rw [poweredBus, ← hsel, ← hsupply, ← hen]
  have hstart : s.isAt 0 (s.eng.lineAt .verifyEnable) (poweredBus s.bus.chipSel s.bus.abus false) s.chip [] := by
    rw [lineAt_self hp (hat.timer rfl), ← hbus]
    exact .zero hnoReset
  refine ⟨hen, hsupply, hsel, fun k h1 hk => ?_, fun k h1 hk => ?_⟩
  · have h := hstart.verifies hlive hmode hquiet (j := k - 1) (by omega)
    rw [show 0 + 1 + (k - 1) = k by omega] at h
    obtain ⟨t, ht, -⟩ := h
    refine ⟨_, ht, ?_⟩
    rw [hbus]
    rfl
  · have h := hstart.verified hlive hmode hquiet hmatch hinv.address (j := k - Config.nRead - 1) (by omega)
    rw [show 0 + Config.nRead + 1 + (k - Config.nRead - 1) = k by omega] at h
    obtain ⟨t, ht, -⟩ := h
    refine ⟨_, ht, hbus.symm, rfl, rfl, rfl, ?_⟩
    have hcool := nCool_sub_one_lt
    show (BitVec.ofNat 32 (Config.nCool - 1 - (k - Config.nRead - 1))).toNat = _
    rw [BitVec.toNat_ofNat, Nat.mod_eq_of_lt (by omega)]
    omega

end Sys2Proof.Machine

/-! SUPPORT. The commands `V`, `r`, `R` and `K` from the end of their line to their response (41_commands.md R117 to R122), with
whatever stands in the socket: a sample is the addressed cell, or a free byte (20_memory.md R50, R61). -/

namespace Sys2Proof.Machine

/-! ### From the line feed to the first line, and from the last line to the response -/

theorem runs_inv {s t : State} : ∀ {n : Nat}, Inv s → runs n s = .next t → Inv t := by
  intro n
  induction n generalizing s with
  | zero =>
    intro hinv h
    cases h
    exact hinv
  | succ n ih =>
    intro hinv h
    obtain ⟨u, hu, hrest⟩ := runs_succ_cases h
    exact ih (stepKeepsInv s u hinv hu) hrest

theorem runs_socket {s t : State} : ∀ {n : Nat}, runs n s = .next t → t.chip.socket = s.chip.socket := by
  intro n
  induction n generalizing s with
  | zero =>
    intro h
    cases h
    rfl
  | succ n ih =>
    intro h
    obtain ⟨u, hu, hrest⟩ := runs_succ_cases h
    exact (ih hrest).trans (step_socket hu)

/-- The chip after `n` more free values have been drawn, its inputs having stood for `held` cycles. -/
def Chip.drawn (c : Chip) (n held : Nat) : Chip := { c with draws := c.draws + n, held := held }

theorem drawn_drawn (c : Chip) (n m held held' : Nat) : (c.drawn n held).drawn m held' = c.drawn (n + m) held' := by
  simp [Chip.drawn, Nat.add_assoc]

theorem observe_drawn {c : Chip} {old new : Bus} (hquiet : c.stage = .quiet) (hout : new.outsideSequence = true)
    (hne : new ≠ old) : c.observe old new = .ok (c.drawn 0 1) := by
  rw [observe_quiet_eq hquiet hout, if_neg hne]
  rfl

/-- `t` is the state after the cycle in which the command `i` starts (40_interpreter.md R111). -/
structure State.begun (s : State) (i : Instr) (t : State) : Prop where
  step : Machine.step s = .next t
  inv : Inv t
  live : t.command.live = some i
  noReset : t.noReset
  keeps : t.discard = false
  lexer : t.lex = clearedLexer
  cause : t.errCause = .none
  stream : t.host.rx = s.host.rx.tail
  output : t.output = s.output
  eng : t.eng = s.eng.lineAt (firstPoint i)
  bus : t.bus = s.bus
  chip : t.chip = s.chip.unchanged
  off : t.bus.supply = .off
  quiet : t.chip.stage = .quiet
  idle : s.eng.lineAt .idle = s.eng

theorem State.begins.begun {s : State} {i : Instr} (h : s.begins i) : ∃ t, s.begun i t := by
  obtain ⟨u, hline, hlive, -, hstep⟩ := h.step
  obtain ⟨-, hidle, -, -⟩ := h.free
  obtain ⟨hoff, -, -, hquiet, htmr⟩ := h.inv.idle hidle
  have hframe := atLineEnd_frame h.inv hline
  rw [hframe] at hstep hlive
  exact ⟨_,
    { step := hstep, inv := stepKeepsInv _ _ h.inv hstep, live := hlive, noReset := noReset_tail h.noReset rfl
      keeps := h.keeps, lexer := rfl, cause := rfl, stream := rfl, output := rfl
      eng := by rw [Engine.lineAt, ← htmr]; rfl
      bus := rfl, chip := rfl, off := hoff, quiet := hquiet, idle := lineAt_self hidle htmr }⟩

section
variable {s t : State} {i : Instr} {k : Nat} {e : Engine} {b : Bus} {c : Chip} {out : List Byte}

theorem State.begun.isAt (h : s.begun i t) : t.isAt 0 (s.eng.lineAt (firstPoint i)) s.bus s.chip.unchanged [] := by
  rw [← h.eng, ← h.bus, ← h.chip]
  exact .zero h.noReset

theorem payloadOf_lineAt (i : Instr) (e : Engine) (p : Point) : payloadOf i (e.lineAt p) = payloadOf i e := by
  cases i <;> rfl

/-- A command that has come to its last line answers in the next cycle. -/
theorem State.begun.answers (h : s.begun i t) (hat : t.isAt k (e.lineAt .respond) b c out) :
    ∃ u, runs (k + 2) s = .next u ∧ s.answered u (out ++ (payloadOf i e ++ okTrailer)) ∧ u.eng = e.lineAt .idle ∧
      u.bus = b ∧ u.chip = c.unchanged := by
  obtain ⟨u, hu, hnoReset, hready, hempty, hlex, hkeeps, hcause, hrx, houtput, heng, hbus, hchip⟩ := hat.ends h.live rfl rfl
  have hrun : runs (k + 2) s = .next u := (runs_succ h.step).trans hu
  have hinv := runs_inv h.inv hu
  have hidle : u.eng.point = .idle := by rw [heng]
  obtain ⟨hsupply, hen, hsel, -⟩ := hinv.idle hidle
  refine ⟨u, hrun, ?_, heng, hbus, hchip⟩
  exact
    { inv := hinv, noReset := hnoReset, ended := hidle, ready := hready, emptied := hempty, lexer := hlex.trans h.lexer
      keeps := hkeeps.trans h.keeps, noCause := hcause.trans h.cause, off := ⟨hsupply, hen, hsel⟩
      output := by rw [houtput, h.output, payloadOf_lineAt]
      stream := hrx.trans h.stream, socket := runs_socket hrun }

/-- The outputs at rest after a command on the cell `w`. -/
def restingBus (chip : Profile) (w : CellAddr) : Bus :=
  { chipSel := chip, abus := w, progSel := 0x00#8, supply := .off, en := false }

/-- From the second line of `PowerDown` on a command answers (41_commands.md R115 (c), (d)). -/
theorem State.begun.answersOff {chip : Profile} {w : CellAddr} (h : s.begun i t) (hi : i ≠ .version)
    (hat : t.isAt k (e.lineAt .powerOff) (poweredBus chip w false) c out) (hquiet : c.stage = .quiet) :
    ∃ n u, runs n s = .next u ∧ s.answered u (out ++ (payloadOf i e ++ okTrailer)) ∧ u.eng = e.lineAt .idle ∧
      u.bus = restingBus chip w ∧ u.chip = c.drawn 0 2 := by
  have hoff : t.isAt (k + 1) (e.lineAt .respond) (restingBus chip w) (c.drawn 0 1) out :=
    hat.line h.live nofun nofun (observe_drawn hquiet rfl (by simp [restingBus, poweredBus])) fun v => by
      rw [lineOf_powerOff hi]
      rfl
  obtain ⟨u, hu, hanswered, heng, hbus, hchip⟩ := h.answers hoff
  exact ⟨_, u, hu, hanswered, heng, hbus, hchip⟩

/-- The commands that reach the chip have it powered and enabled after some cycles (42_programming_engine.md R130). -/
theorem State.begun.powersUp (h : s.begun i t) (hi : i ≠ .version) :
    ∃ k, t.isAt k (s.eng.lineAt (afterPath i)) (poweredBus (profileOf i) 0#9 true) (s.chip.drawn 0 1) [] := by
  have hoff : s.bus.supply = .off := h.bus ▸ h.off
  have hquiet : s.chip.stage = .quiet := by
    have := h.quiet
    rwa [h.chip] at this
  have hselect : ∃ k held, t.isAt k (s.eng.lineAt .selectChip) s.bus { s.chip with held := held } [] := by
    have hstart := h.isAt
    by_cases hscan : scans i = true
    · have hfirst : firstPoint i = .countCells := by
        cases i with
        | readAll => rfl
        | blankCheck => rfl
        | _ => cases hscan
      rw [hfirst] at hstart
      exact ⟨1, _, hstart.line (c₁ := s.chip.unchanged) h.live nofun nofun observe_same fun u => by
        rw [lineOf_countCells hscan]
        rfl⟩
    · have hfirst : firstPoint i = .selectChip := by
        cases i with
        | version => exact absurd rfl hi
        | readAll => exact absurd rfl hscan
        | blankCheck => exact absurd rfl hscan
        | _ => rfl
      rw [hfirst] at hstart
      exact ⟨0, _, hstart⟩
  obtain ⟨k, held, hselect⟩ := hselect
  obtain ⟨held', hselected⟩ := hselect.selectsChip h.live hi hoff hquiet
  have hpos := nPwrup_pos
  have hpowered := hselected.powersOn h.live hi hquiet (j := Config.nPwrup - 1) (by omega)
  rw [Nat.sub_self] at hpowered
  exact ⟨_, State.isAt.opensPath (e := s.eng) (c := { s.chip with held := 1 + (Config.nPwrup - 1) }) hpowered h.live hi hquiet⟩

end

/-- Settles O27: the start is the first cycle of `V`, its only line the second. -/
theorem versionResult : Obligations.VersionResult := by
  refine ⟨rfl, fun s hbegins => ⟨hbegins.starts, ?_, ?_⟩⟩
  · obtain ⟨t, hbegun⟩ := hbegins.begun
    exact ⟨t, runs_succ hbegun.step, hbegun.bus⟩
  · obtain ⟨t, hbegun⟩ := hbegins.begun
    obtain ⟨u, hu, hanswered, heng, hbus, hchip⟩ := hbegun.answers (e := s.eng) hbegun.isAt
    exact ⟨u, hu, hanswered, hbus, heng.trans hbegun.idle, by rw [hchip]; rfl, by rw [hchip]; rfl⟩

/-! ### One read -/

/-- What a sample of the cell `a` gives: the cell, or with no chip of the profile a free byte (20_memory.md R50, R61). -/
def Chip.sampled (c : Chip) (chip : Profile) (a : Nat) : Byte :=
  if c.socket.matches chip then readCell c.cells a else Config.strayByte c.draws

/-- How many free values a sample draws. -/
def Chip.sampleDraws (c : Chip) (chip : Profile) : Nat := if c.socket.matches chip then 0 else 1

theorem answer_poweredBus {c : Chip} {chip : Profile} {w : CellAddr} (haddr : addrInRange chip w = true)
    (hheld : Config.nRead ≤ c.held) :
    c.answer (poweredBus chip w true) =
      .ok (c.sampled chip w.toNat, c.drawn (c.sampleDraws chip) c.held) := by
  unfold Chip.sampled Chip.sampleDraws
  cases hmatch : c.socket.matches chip with
  | true => rw [Chip.answer, if_pos (readConditions_poweredBus hmatch hheld)]; exact if_pos haddr
  | false => exact answer_of_mismatch hmatch

theorem sampleBus_of_answer {s : State} {line : Byte → State → State} {v : Byte} {c : Chip}
    (h : s.chip.answer s.bus = .ok (v, c)) : s.sampleBus line = .next (line v { s with chip := c }) := by
  rw [State.sampleBus, h]

section
variable {s t : State} {i : Instr} {k : Nat} {p q : Point} {e e₁ : Engine} {e₂ : Byte → Engine} {c : Chip} {out : List Byte}
  {chip : Profile} {w w' : CellAddr}

/-- One read of a cell: the line that sets the address, the wait, and the line that samples (42_programming_engine.md R132). -/
theorem State.isAt.reads (line : Byte → State → State) (h : t.isAt k (e.lineAt p) (poweredBus chip w true) c out)
    (hlive : t.command.live = some i) (hp : p ≠ .idle) (hq : q ≠ .idle) (hquiet : c.stage = .quiet)
    (haddr : addrInRange chip w' = true)
    (hset : ∀ u : State, lineOf i p (u.standing (e.lineAt p) (poweredBus chip w true) c) =
      .next (u.standing { e₁.lineAt .readSample with tmr := BitVec.ofNat 32 (Config.nRead - 1) }
        (poweredBus chip w' true) c))
    (hsample : ∀ u : State, lineOf i .readSample u = u.sampleBus line)
    (hline : ∀ (v : Byte) (c' : Chip) (u : State),
      line v (u.standing (e₁.lineAt .readSample) (poweredBus chip w' true) c') =
        u.standing ((e₂ v).lineAt q) (poweredBus chip w' true) c') :
    ∃ k' held, t.isAt k' ((e₂ (c.sampled chip w'.toNat)).lineAt q) (poweredBus chip w' true)
      (c.drawn (c.sampleDraws chip) held) out := by
  have haddressed : ∃ held, 1 ≤ held ∧ t.isAt (k + 1)
      { e₁.lineAt .readSample with tmr := BitVec.ofNat 32 (Config.nRead - 1) } (poweredBus chip w' true)
      { c with held := held } out := by
    refine ⟨_, ?_, h.line (c₁ := c) hlive hp nofun (observe_quiet_eq hquiet rfl) hset⟩
    split
    · exact Nat.le_add_left 1 _
    · exact le_rfl
  obtain ⟨held, hheld, haddressed⟩ := haddressed
  have hpos := nRead_pos
  have hwaited := State.isAt.waits (e := e₁.lineAt .readSample) hlive nofun nRead_sub_one_lt _ le_rfl haddressed
  rw [Nat.sub_self] at hwaited
  have hanswer := answer_poweredBus (c := { c with held := held + (Config.nRead - 1) }) haddr
    (show Config.nRead ≤ held + (Config.nRead - 1) by omega)
  refine ⟨_, held + (Config.nRead - 1) + 1, State.isAt.line (e := e₁) (p := .readSample)
    (c₁ := c.drawn (c.sampleDraws chip) (held + (Config.nRead - 1))) hwaited hlive nofun hq
    observe_same fun u => ?_⟩
  rw [hsample, sampleBus_of_answer hanswer]
  exact congrArg _ (hline _ _ u)

/-- The first line of `PowerDown` after a read, with the test before it (R131). -/
theorem State.isAt.powersDown (h : t.isAt k (e.lineAt p) (poweredBus chip w true) c out) (hlive : t.command.live = some i)
    (hp : p ≠ .idle) (hquiet : c.stage = .quiet)
    (hline : ∀ u : State, lineOf i p (u.standing (e.lineAt p) (poweredBus chip w true) c) =
      .next (u.standing (e₁.lineAt .powerOff) (poweredBus chip w false) c)) :
    t.isAt (k + 1) (e₁.lineAt .powerOff) (poweredBus chip w false) (c.drawn 0 1) out :=
  h.line hlive hp nofun (observe_drawn hquiet rfl (by simp [poweredBus])) hline

end

/-! ### `r` -/

/-- The chip is outside a programming sequence when a command begins. -/
theorem State.begun.chip_quiet {s t : State} {i : Instr} (h : s.begun i t) : s.chip.stage = .quiet := by
  have hquiet := h.quiet
  rwa [h.chip] at hquiet

/-- `r` answers the byte it samples (41_commands.md R122). -/
theorem readByte_answers {s : State} {chip : Profile} {addr : CellAddr} (hbegins : s.begins (.readByte chip addr)) :
    ∃ n u, runs n s = .next u ∧ s.answered u (hex2 (s.chip.sampled chip addr.toNat) ++ okTrailer) ∧
      u.eng = { s.eng with b := s.chip.sampled chip addr.toNat } ∧ u.bus = restingBus chip addr ∧
      u.chip.cells = s.chip.cells ∧ u.chip.draws = s.chip.draws + s.chip.sampleDraws chip := by
  obtain ⟨t, hbegun⟩ := hbegins.begun
  have hquiet := hbegun.chip_quiet
  obtain ⟨k, hup⟩ := hbegun.powersUp nofun
  obtain ⟨k', held, hread⟩ := hup.reads (e₁ := s.eng) (e₂ := fun v => { s.eng with b := v }) (q := .powerDown)
    (fun v u => (u.setB v).goto .powerDown) hbegun.live nofun nofun hquiet hbegins.wellFormed (fun _ => rfl) (fun _ => rfl)
    (fun _ _ _ => rfl)
  have hdown := State.isAt.powersDown (e₁ := { s.eng with b := s.chip.sampled chip addr.toNat }) hread hbegun.live nofun
    hquiet fun _ => rfl
  obtain ⟨n, u, hn, hanswered, heng, hbus, hchip⟩ := hbegun.answersOff nofun hdown hquiet
  exact ⟨n, u, hn, hanswered, heng.trans (by rw [← hbegun.idle]; rfl), hbus, by rw [hchip]; rfl, by rw [hchip]; rfl⟩

/-- Settles O28: with a chip of the profile the sample is the cell. -/
theorem readByteResult : Obligations.ReadByteResult := by
  intro s chip addr hbegins hmatch
  obtain ⟨n, t, hn, hanswered, heng, hbus, hcells, hdraws⟩ := readByte_answers hbegins
  rw [Chip.sampled, if_pos hmatch] at hanswered heng
  rw [Chip.sampleDraws, if_pos hmatch] at hdraws
  exact ⟨hbegins.starts, n, t, hn, hanswered, heng, hbus, hcells, hdraws⟩

/-- Settles O29: without one it is a free byte. -/
theorem readWithoutChip : Obligations.ReadWithoutChip := by
  intro s chip addr hbegins hmismatch
  obtain ⟨n, t, hn, hanswered, -, -, hcells, hdraws⟩ := readByte_answers hbegins
  rw [Chip.sampled, if_neg (by simp [hmismatch])] at hanswered
  rw [Chip.sampleDraws, if_neg (by simp [hmismatch])] at hdraws
  exact ⟨hbegins.starts, n, t, hn, hanswered, hcells, hdraws⟩

/-! ### `R` -/

/-- What the scan reads of the cell `a`: the cell, or with no chip of the profile the free byte of its draw. -/
def Chip.scanned (c : Chip) (chip : Profile) (a : Nat) : Byte :=
  if c.socket.matches chip then readCell c.cells a else Config.strayByte (c.draws + a)

/-- The digits of the first `n` cells of a scan. -/
def Chip.scanOut (c : Chip) (chip : Profile) (n : Nat) : List Byte :=
  (List.range n).flatMap fun a => hex2 (c.scanned chip a)

theorem sampled_drawn (c : Chip) (chip : Profile) (a held : Nat) :
    (c.drawn (a * c.sampleDraws chip) held).sampled chip a = c.scanned chip a := by
  unfold Chip.sampled Chip.scanned Chip.drawn Chip.sampleDraws
  by_cases hmatch : c.socket.matches chip = true
  · simp only [if_pos hmatch]
  · simp only [if_neg hmatch, Nat.mul_one]

theorem scanOut_succ (c : Chip) (chip : Profile) (n : Nat) :
    c.scanOut chip (n + 1) = c.scanOut chip n ++ hex2 (c.scanned chip n) := by
  simp [Chip.scanOut, List.range_succ]

/-- `R` has come to the head of its loop for the cell `a`, all cells below it read and sent; `c` is the chip at its start, `e` the
engine then. -/
def State.scansAt (t : State) (chip : Profile) (e : Engine) (c : Chip) (a : Nat) : Prop :=
  ∃ k p v x w held, p ≠ .idle ∧
    (∀ (u : State) (b : Bus) (c' : Chip), lineOf (.readAll chip) p (u.standing ({ e with b := v, scanA := x }.lineAt p) b c') =
      .next (scanCell chip (BitVec.ofNat 10 a) (u.standing ({ e with b := v, scanA := x }.lineAt p) b c'))) ∧
    t.isAt k ({ e with b := v, scanA := x }.lineAt p) (poweredBus chip w true) (c.drawn (a * c.sampleDraws chip) held)
      (c.scanOut chip a)

section
variable {t : State} {chip : Profile} {e : Engine} {c : Chip} {a : Nat}

theorem scanCell_of_lt {u : State} (ha : a < cellCount chip) :
    scanCell chip (BitVec.ofNat 10 a) u = (u.setScan (BitVec.ofNat 10 a)).readAt (BitVec.ofNat 9 a) := by
  rw [scanCell, toNat_scan ha.le, if_pos ha, scan_truncate]

theorem scanCell_of_end {u : State} :
    scanCell chip (BitVec.ofNat 10 (cellCount chip)) u = (u.setScan (BitVec.ofNat 10 (cellCount chip))).powerDown := by
  rw [scanCell, toNat_scan le_rfl, if_neg (lt_irrefl _)]

theorem lineOf_scanNext (u : State) (b : Bus) (c' : Chip) :
    lineOf (.readAll chip) .scanNext (u.standing ({ e with scanA := BitVec.ofNat 10 a }.lineAt .scanNext) b c') =
      .next (scanCell chip (BitVec.ofNat 10 (a + 1))
        (u.standing ({ e with scanA := BitVec.ofNat 10 a }.lineAt .scanNext) b c')) := by
  rw [BitVec.ofNat_add]
  rfl

/-- One round of the loop: the cell is read and its digits are sent (41_commands.md R118). -/
theorem State.scansAt.next (h : t.scansAt chip e c a) (hlive : t.command.live = some (.readAll chip))
    (hquiet : c.stage = .quiet) (ha : a < cellCount chip) : t.scansAt chip e c (a + 1) := by
  obtain ⟨k, p, v, x, w, held, hp, hloop, hat⟩ := h
  obtain ⟨k', held', hread⟩ := hat.reads (e₁ := { e with b := v, scanA := BitVec.ofNat 10 a })
    (e₂ := fun v => { e with b := v, scanA := BitVec.ofNat 10 a }) (q := .scanEmit)
    (fun b t => (t.setB b).goto .scanEmit) hlive hp nofun hquiet (addrInRange_scanAddr ha)
    (fun u => by rw [hloop, scanCell_of_lt ha]; rfl) (fun _ => rfl) (fun _ _ _ => rfl)
  rw [toNat_scanAddr ha, sampled_drawn, drawn_drawn] at hread
  have hsent : t.isAt (k' + 1) ({ e with b := c.scanned chip a, scanA := BitVec.ofNat 10 a }.lineAt .scanNext)
      (poweredBus chip (BitVec.ofNat 9 a) true) (c.drawn ((a + 1) * c.sampleDraws chip) (held' + 1))
      (c.scanOut chip (a + 1)) := by
    rw [scanOut_succ, Nat.succ_mul]
    exact hread.emits hlive nofun nofun observe_same fun u =>
      (exec_standing (p := .scanEmit) _ nofun u).trans rfl
  exact ⟨_, .scanNext, _, _, _, _, nofun, lineOf_scanNext (e := { e with b := c.scanned chip a }), hsent⟩

/-- The loop ends after the last cell. -/
theorem State.scansAt.ends (h : t.scansAt chip e c (cellCount chip)) (hlive : t.command.live = some (.readAll chip))
    (hquiet : c.stage = .quiet) :
    ∃ k v x w, t.isAt k ({ e with b := v, scanA := x }.lineAt .powerOff) (poweredBus chip w false)
      (c.drawn (cellCount chip * c.sampleDraws chip) 1) (c.scanOut chip (cellCount chip)) := by
  obtain ⟨k, p, v, x, w, held, hp, hloop, hat⟩ := h
  have hdown := hat.powersDown (e₁ := { e with b := v, scanA := BitVec.ofNat 10 (cellCount chip) }) hlive hp hquiet
    fun u => by rw [hloop, scanCell_of_end]; rfl
  exact ⟨_, _, _, _, hdown⟩

theorem State.scansAt.all (h : t.scansAt chip e c 0) (hlive : t.command.live = some (.readAll chip))
    (hquiet : c.stage = .quiet) : ∀ {a : Nat}, a ≤ cellCount chip → t.scansAt chip e c a
  | 0, _ => h
  | a + 1, ha => (h.all hlive hquiet (a := a) (by omega)).next hlive hquiet ha

end

/-- `R` answers what it samples of every cell, in order, and the count (41_commands.md R119). -/
theorem readAll_answers {s : State} {chip : Profile} (hbegins : s.begins (.readAll chip)) :
    ∃ n u, runs n s = .next u ∧
      s.answered u (s.chip.scanOut chip (cellCount chip) ++
        (crlf ++ hex3 (BitVec.ofNat 12 (cellCount chip)) ++ okTrailer)) ∧
      u.eng = { s.eng with b := u.eng.b, scanA := u.eng.scanA } ∧ u.bus = restingBus chip u.bus.abus ∧
      u.chip.cells = s.chip.cells ∧ u.chip.draws = s.chip.draws + cellCount chip * s.chip.sampleDraws chip := by
  obtain ⟨t, hbegun⟩ := hbegins.begun
  have hquiet := hbegun.chip_quiet
  obtain ⟨k, hup⟩ := hbegun.powersUp nofun
  have hstart : t.scansAt chip s.eng s.chip 0 := by
    refine ⟨k, .scanFirst, s.eng.b, s.eng.scanA, 0#9, 1, nofun, fun _ _ _ => rfl, ?_⟩
    rw [Nat.zero_mul]
    exact hup
  obtain ⟨k', v, x, w, hdown⟩ := (hstart.all hbegun.live hquiet le_rfl).ends hbegun.live hquiet
  obtain ⟨n, u, hn, hanswered, heng, hbus, hchip⟩ := hbegun.answersOff nofun hdown hquiet
  refine ⟨n, u, hn, hanswered, ?_, by rw [hbus]; rfl, by rw [hchip]; rfl, by rw [hchip]; rfl⟩
  rw [heng, ← hbegun.idle]
  rfl

/-- Settles O30: with a chip of the profile every sample is the cell. -/
theorem readAllResult : Obligations.ReadAllResult := by
  intro s chip hbegins hmatch
  obtain ⟨n, t, hn, hanswered, heng, hbus, hcells, hdraws⟩ := readAll_answers hbegins
  rw [Chip.sampleDraws, if_pos hmatch, Nat.mul_zero] at hdraws
  refine ⟨hbegins.starts, n, t, hn, ?_, heng, hbus, hcells, hdraws⟩
  simp only [Chip.scanOut, Chip.scanned, if_pos hmatch, crlf] at hanswered
  simp only [List.append_assoc] at hanswered ⊢
  exact hanswered

/-! ### `K` -/

/-- `K` has come to the test of its loop for the cell `a`, all cells below it sampled. -/
def State.blanksAt (t : State) (chip : Profile) (e : Engine) (c : Chip) (a : Nat) : Prop :=
  ∃ k v w held, t.isAt k ({ e with b := v, scanA := BitVec.ofNat 10 a }.lineAt .blankLoop) (poweredBus chip w true)
    (c.drawn (a * c.sampleDraws chip) held) []

/-- `K` has left its loop at the address `stop`, having drawn for `n` samples. -/
def State.blankStopsAt (t : State) (chip : Profile) (e : Engine) (c : Chip) (stop n : Nat) : Prop :=
  ∃ k v w, t.isAt k ({ e with b := v, scanA := BitVec.ofNat 10 stop }.lineAt .powerOff) (poweredBus chip w false)
    (c.drawn (n * c.sampleDraws chip) 1) []

section
variable {t : State} {chip : Profile} {e : Engine} {c : Chip} {a : Nat}

/-- A cell is sampled (41_commands.md R120). -/
theorem State.blanksAt.sample (h : t.blanksAt chip e c a) (hlive : t.command.live = some (.blankCheck chip))
    (hquiet : c.stage = .quiet) (ha : a < cellCount chip) :
    ∃ k held, t.isAt k ({ e with b := c.scanned chip a, scanA := BitVec.ofNat 10 a }.lineAt .blankTest)
      (poweredBus chip (BitVec.ofNat 9 a) true) (c.drawn ((a + 1) * c.sampleDraws chip) held) [] := by
  obtain ⟨k, v, w, held, hat⟩ := h
  have hlt : (BitVec.ofNat 10 a).toNat < cellCount chip := (toNat_scan ha.le).trans_lt ha
  obtain ⟨k', held', hread⟩ := hat.reads (e₁ := { e with b := v, scanA := BitVec.ofNat 10 a })
    (e₂ := fun v => { e with b := v, scanA := BitVec.ofNat 10 a }) (q := .blankTest)
    (fun b t => (t.setB b).goto .blankTest) hlive nofun nofun hquiet (addrInRange_scanAddr ha)
    (fun u => (congrArg _ (blankCell_of_lt hlt)).trans (by rw [← scan_truncate]; rfl)) (fun _ => rfl) (fun _ _ _ => rfl)
  rw [toNat_scanAddr ha, sampled_drawn, drawn_drawn] at hread
  rw [Nat.succ_mul]
  exact ⟨k', held', hread⟩

/-- A blank cell: the loop goes on with the next one. -/
theorem State.blanksAt.next (h : t.blanksAt chip e c a) (hlive : t.command.live = some (.blankCheck chip))
    (hquiet : c.stage = .quiet) (ha : a < cellCount chip) (hblank : c.scanned chip a = 0x00#8) :
    t.blanksAt chip e c (a + 1) := by
  obtain ⟨k, held, hat⟩ := h.sample hlive hquiet ha
  refine ⟨k + 1, c.scanned chip a, BitVec.ofNat 9 a, held + 1,
    hat.line (c₁ := c.drawn ((a + 1) * c.sampleDraws chip) held) hlive nofun nofun observe_same fun u => ?_⟩
  refine (congrArg _ (blankStep_of_blank hblank)).trans ?_
  rw [BitVec.ofNat_add]
  rfl

/-- A cell that is not blank: the loop is left. -/
theorem State.blanksAt.leaves (h : t.blanksAt chip e c a) (hlive : t.command.live = some (.blankCheck chip))
    (hquiet : c.stage = .quiet) (ha : a < cellCount chip) (hblank : c.scanned chip a ≠ 0x00#8) :
    t.blankStopsAt chip e c a (a + 1) := by
  obtain ⟨k, held, hat⟩ := h.sample hlive hquiet ha
  exact ⟨_, _, _, hat.powersDown hlive nofun hquiet fun u => congrArg _ (blankStep_of_not_blank hblank)⟩

/-- After the last cell the loop is left. -/
theorem State.blanksAt.ends (h : t.blanksAt chip e c (cellCount chip)) (hlive : t.command.live = some (.blankCheck chip))
    (hquiet : c.stage = .quiet) : t.blankStopsAt chip e c (cellCount chip) (cellCount chip) := by
  obtain ⟨k, v, w, held, hat⟩ := h
  refine ⟨_, _, _, hat.powersDown hlive nofun hquiet fun u => congrArg _ (blankCell_of_not_lt ?_)⟩
  exact (toNat_scan le_rfl).not_lt

/-- The loop stops at the first sample that is not blank, or after the last cell. -/
theorem State.blanksAt.stops (h : t.blanksAt chip e c a) (hlive : t.command.live = some (.blankCheck chip))
    (hquiet : c.stage = .quiet) (ha : a ≤ cellCount chip) (hbelow : ∀ j, j < a → c.scanned chip j = 0x00#8) :
    ∃ stop ≤ cellCount chip, (∀ j, j < stop → c.scanned chip j = 0x00#8) ∧
      (stop < cellCount chip → c.scanned chip stop ≠ 0x00#8) ∧
      t.blankStopsAt chip e c stop (min (stop + 1) (cellCount chip)) := by
  induction hleft : cellCount chip - a generalizing a with
  | zero =>
    obtain rfl : a = cellCount chip := by omega
    refine ⟨_, le_rfl, hbelow, fun hlt => absurd hlt (lt_irrefl _), ?_⟩
    rw [Nat.min_eq_right (Nat.le_succ _)]
    exact h.ends hlive hquiet
  | succ n ih =>
    have hlt : a < cellCount chip := by omega
    by_cases hblank : c.scanned chip a = 0x00#8
    · refine ih (h.next hlive hquiet hlt hblank) hlt (fun j hj => ?_) (by omega)
      obtain rfl | hj := Nat.eq_or_lt_of_le (Nat.lt_succ_iff.mp hj)
      · exact hblank
      · exact hbelow j hj
    · refine ⟨a, ha, hbelow, fun _ => hblank, ?_⟩
      rw [Nat.min_eq_left hlt]
      exact h.leaves hlive hquiet hlt hblank

end

/-- `K` answers the number of the first cell whose sample is not blank, or the number of cells (41_commands.md R121). -/
theorem blankCheck_answers {s : State} {chip : Profile} (hbegins : s.begins (.blankCheck chip)) :
    ∃ n u stop, runs n s = .next u ∧ stop ≤ cellCount chip ∧ (∀ a, a < stop → s.chip.scanned chip a = 0x00#8) ∧
      (stop < cellCount chip → s.chip.scanned chip stop ≠ 0x00#8) ∧
      s.answered u (hex3 (BitVec.ofNat 12 stop) ++ okTrailer) ∧ u.chip.cells = s.chip.cells ∧
      u.chip.draws = s.chip.draws + min (stop + 1) (cellCount chip) * s.chip.sampleDraws chip := by
  obtain ⟨t, hbegun⟩ := hbegins.begun
  have hquiet := hbegun.chip_quiet
  obtain ⟨k, hup⟩ := hbegun.powersUp nofun
  have hstart : t.blanksAt chip s.eng s.chip 0 := by
    refine ⟨k + 1, s.eng.b, 0#9, 2, ?_⟩
    rw [Nat.zero_mul]
    exact hup.line hbegun.live nofun nofun observe_same fun _ => rfl
  obtain ⟨stop, hle, hbelow, hat, k', v, w, hdown⟩ := hstart.stops hbegun.live hquiet (Nat.zero_le _) nofun
  obtain ⟨n, u, hn, hanswered, -, -, hchip⟩ := hbegun.answersOff nofun hdown hquiet
  refine ⟨n, u, stop, hn, hle, hbelow, hat, ?_, by rw [hchip]; rfl, by rw [hchip]; rfl⟩
  rw [← scan_zeroExtend hle]
  exact hanswered

/-- Settles O36: without a chip of the profile each sample is the free byte of its draw. -/
theorem scansWithoutChip : Obligations.ScansWithoutChip := by
  refine ⟨fun s chip hbegins hmismatch => ⟨hbegins.starts, ?_⟩, fun s chip hbegins hmismatch => ⟨hbegins.starts, ?_⟩⟩
  · obtain ⟨n, t, hn, hanswered, -, -, hcells, hdraws⟩ := readAll_answers hbegins
    have hne : ¬ s.chip.socket.matches chip = true := by simp [hmismatch]
    rw [Chip.sampleDraws, if_neg hne, Nat.mul_one] at hdraws
    refine ⟨n, t, hn, ?_, hcells, hdraws⟩
    simp only [Chip.scanOut, Chip.scanned, if_neg hne, crlf, List.append_assoc] at hanswered ⊢
    exact hanswered
  · obtain ⟨n, t, stop, hn, hle, hbelow, hat, hanswered, hcells, hdraws⟩ := blankCheck_answers hbegins
    have hne : ¬ s.chip.socket.matches chip = true := by simp [hmismatch]
    rw [Chip.sampleDraws, if_neg hne, Nat.mul_one] at hdraws
    simp only [Chip.scanned, if_neg hne] at hbelow hat
    exact ⟨n, t, stop, hn, hle, hbelow, hat, hanswered, hcells, hdraws⟩

end Sys2Proof.Machine

/-! SUPPORT. The closed form of the bit-burn algorithm (42_programming_engine.md R140), bit by bit. -/

namespace Sys2Proof.Machine

/-! ### The lowest position -/

/-- Up to which position `p` holds nowhere. -/
theorem le_lowestFrom_iff {p : Nat → Bool} {m : Nat} :
    ∀ {n i : Nat}, i ≤ m → (m ≤ lowestFrom p n i ↔ m ≤ i + n ∧ ∀ j, i ≤ j → j < m → p j = false)
  | 0, i, him => by
    rw [lowestFrom, Nat.add_zero]
    exact ⟨fun hle => ⟨hle, fun j hij hjm => by omega⟩, fun h => h.1⟩
  | n + 1, i, him => by
    rw [lowestFrom]
    split
    · next hp =>
      refine ⟨fun hle => ⟨by omega, fun j hij hjm => by omega⟩, fun ⟨_, hnone⟩ => not_lt.mp fun hlt => ?_⟩
      cases hp.symm.trans (hnone i le_rfl hlt)
    · next hp =>
      obtain rfl | hlt := Nat.eq_or_lt_of_le him
      · have hpos : i + 1 ≤ lowestFrom p n (i + 1) :=
          (le_lowestFrom_iff le_rfl).mpr ⟨by omega, fun j hij hjm => by omega⟩
        exact ⟨fun _ => ⟨by omega, fun j hij hjm => by omega⟩, fun _ => by omega⟩
      · rw [le_lowestFrom_iff hlt]
        refine ⟨fun ⟨hle, hnone⟩ => ⟨by omega, fun j hij hjm => ?_⟩, fun ⟨hle, hnone⟩ => ⟨by omega, fun j hij => hnone j (by omega)⟩⟩
        obtain rfl | hij := Nat.eq_or_lt_of_le hij
        · simpa using hp
        · exact hnone j hij hjm

theorem le_lowest_iff {p : Nat → Bool} {m : Nat} :
    m ≤ lowestFrom p 8 0 ↔ m ≤ 8 ∧ ∀ j, j < m → p j = false := by
  rw [le_lowestFrom_iff (Nat.zero_le m)]
  simp

theorem lowest_le (p : Nat → Bool) : lowestFrom p 8 0 ≤ 8 := (le_lowest_iff.mp le_rfl).1

/-- The lowest position is one at which `p` holds, and `p` holds at none below it. -/
theorem lowest_eq {p : Nat → Bool} {k : Nat} (hp : p k = true) (hbelow : k ≤ lowestFrom p 8 0) :
    lowestFrom p 8 0 = k := by
  refine le_antisymm (not_lt.mp fun hlt => ?_) hbelow
  obtain ⟨-, hnone⟩ := le_lowest_iff.mp (Nat.succ_le_of_lt hlt)
  cases hp.symm.trans (hnone k (Nat.lt_succ_self k))

theorem lowest_holds {p : Nat → Bool} (h : lowestFrom p 8 0 < 8) : p (lowestFrom p 8 0) = true := by
  by_contra hp
  have hnone : lowestFrom p 8 0 + 1 ≤ lowestFrom p 8 0 := by
    refine le_lowest_iff.mpr ⟨h, fun j hj => ?_⟩
    obtain rfl | hj := Nat.eq_or_lt_of_le (Nat.lt_succ_iff.mp hj)
    · simpa using hp
    · exact (le_lowest_iff.mp le_rfl).2 j hj
  omega

/-! ### Masks and counts -/

theorem getLsbD_lowMask (j i : Nat) : (lowMask j).getLsbD i = (decide (i < 8) && decide (i < j)) := by
  rw [lowMask, BitVec.getLsbD_ofNat, Nat.testBit_two_pow_sub_one]

/-- A mask may stop earlier where the bits between are unset. -/
theorem and_lowMask_congr {v : Byte} {i k : Nat} (hik : i ≤ k) (h : ∀ j, i ≤ j → j < k → v.getLsbD j = false) :
    v &&& lowMask k = v &&& lowMask i := by
  apply BitVec.eq_of_getLsbD_eq
  intro j hj
  rw [BitVec.getLsbD_and, BitVec.getLsbD_and, getLsbD_lowMask, getLsbD_lowMask]
  by_cases hji : j < i
  · simp [hji, hji.trans_le hik]
  · by_cases hjk : j < k
    · simp [h j (not_lt.mp hji) hjk]
    · simp [hji, hjk]

theorem and_lowMask_succ {v : Byte} {k : Nat} (hk : k < 8) (h : v.getLsbD k = true) :
    v &&& lowMask (k + 1) = (v &&& lowMask k) ||| onehot8 k := by
  apply BitVec.eq_of_getLsbD_eq
  intro j hj
  rw [BitVec.getLsbD_or, BitVec.getLsbD_and, BitVec.getLsbD_and, getLsbD_lowMask, getLsbD_lowMask, getLsbD_onehot8 hk]
  by_cases hjk : j = k
  · subst hjk
    simp [h, hj]
  · have hiff : j < k + 1 ↔ j < k := by omega
    simp [hjk, hiff]

theorem and_lowMask_zero (v : Byte) : v &&& lowMask 0 = 0x00#8 := by
  rw [show lowMask 0 = 0x00#8 from rfl, BitVec.and_zero]

/-- The set bits below a position, counted. -/
theorem popcount_and_lowMask (v : Byte) {k : Nat} (hk : k ≤ 8) :
    popcount (v &&& lowMask k) = ((List.range k).filter fun i => v.getLsbD i).length := by
  obtain ⟨m, hm⟩ := Nat.exists_eq_add_of_le hk
  have hbelow : (List.range k).filter (fun i => (v &&& lowMask k).getLsbD i) =
      (List.range k).filter fun i => v.getLsbD i := by
    refine List.filter_congr fun i hi => ?_
    have hik := List.mem_range.mp hi
    simp [getLsbD_lowMask, hik, hik.trans_le hk]
  have habove : ((List.range m).map (k + ·)).filter (fun i => (v &&& lowMask k).getLsbD i) = [] := by
    rw [List.filter_eq_nil_iff]
    intro i hi
    obtain ⟨j, -, rfl⟩ := List.mem_map.mp hi
    simp [getLsbD_lowMask]
  have hrange : List.range 8 = List.range k ++ (List.range m).map (k + ·) := by rw [← List.range_add, ← hm]
  rw [popcount, hrange, List.filter_append, hbelow, habove, List.append_nil]

theorem popcount_and_lowMask_succ {v : Byte} {k : Nat} (hk : k < 8) (h : v.getLsbD k = true) :
    popcount (v &&& lowMask (k + 1)) = popcount (v &&& lowMask k) + 1 := by
  rw [popcount_and_lowMask v hk, popcount_and_lowMask v hk.le, List.range_succ, List.filter_append]
  simp [h]

theorem popcount_le (v : Byte) : popcount v ≤ 8 := (List.length_filter_le _ _).trans_eq (List.length_range)

/-! ### The closed forms -/

section
variable {e v : Byte} {d m k : Nat}

theorem getLsbD_impossibleBits (e v : Byte) (j : Nat) (hj : j < 8) :
    (impossibleBits e v).getLsbD j = (e.getLsbD j && !v.getLsbD j) := by
  simp [impossibleBits, hj]

theorem getLsbD_burnableBits (e v : Byte) (j : Nat) (hj : j < 8) :
    (burnableBits e v).getLsbD j = (!e.getLsbD j && v.getLsbD j) := by
  simp [burnableBits, hj]

theorem le_impossibleAt_iff :
    m ≤ impossibleAt e v ↔ m ≤ 8 ∧ ∀ j, j < m → ¬ (e.getLsbD j = true ∧ v.getLsbD j = false) := by
  rw [impossibleAt, le_lowest_iff]
  refine and_congr_right fun hm => forall_congr' fun j => imp_congr_right fun hj => ?_
  rw [getLsbD_impossibleBits e v j (hj.trans_le hm)]
  cases e.getLsbD j <;> cases v.getLsbD j <;> simp

/-- The fuse of the bit `j` does not blow, its pulse being the one after those of the burnable bits below it. -/
def failsBit (e v : Byte) (d j : Nat) : Bool :=
  !Config.fuseBlows (d + popcount (burnableBits e v &&& lowMask j))

theorem le_failsAt_iff :
    m ≤ failsAt e v d ↔ m ≤ 8 ∧ ∀ j, j < m → j < impossibleAt e v → (burnableBits e v).getLsbD j = true →
      failsBit e v d j = false := by
  rw [failsAt, le_lowest_iff]
  refine and_congr_right fun _ => forall_congr' fun j => imp_congr_right fun _ => ?_
  rw [← failsBit]
  by_cases hj : j < impossibleAt e v
  · cases (burnableBits e v).getLsbD j <;> simp [hj]
  · simp [hj]

theorem failsAt_eq (hk : k < impossibleAt e v) (hburn : (burnableBits e v).getLsbD k = true)
    (hfails : failsBit e v d k = true) (hbelow : k ≤ failsAt e v d) : failsAt e v d = k :=
  lowest_eq (by
    rw [← failsBit]
    simp [hk, hburn, hfails]) hbelow

theorem failsAt_lt (h : failsAt e v d < 8) :
    failsAt e v d < impossibleAt e v ∧ (burnableBits e v).getLsbD (failsAt e v d) = true := by
  have hholds := lowest_holds h
  simp only [Bool.and_eq_true, decide_eq_true_eq] at hholds
  obtain ⟨⟨hlt, hburn⟩, -⟩ := hholds
  exact ⟨hlt, hburn⟩

end

theorem impossibleAt_le (e v : Byte) : impossibleAt e v ≤ 8 := lowest_le _

theorem failsAt_le (e v : Byte) (d : Nat) : failsAt e v d ≤ 8 := lowest_le _

/-- What the algorithm has achieved when it stops at position `k`: the existing bits and the burnable ones below `k`. -/
def achievedTo (e v : Byte) (k : Nat) : Byte := e ||| (burnableBits e v &&& lowMask k)

theorem simulatedByte_eq (e v : Byte) : simulatedByte e v = achievedTo e v (impossibleAt e v) := rfl

theorem programmedByte_eq (e v : Byte) (d : Nat) :
    programmedByte e v d = achievedTo e v (min (impossibleAt e v) (failsAt e v d)) := rfl

theorem getLsbD_achievedTo (e v : Byte) (k j : Nat) (hj : j < 8) :
    (achievedTo e v k).getLsbD j = (e.getLsbD j || (v.getLsbD j && decide (j < k))) := by
  rw [achievedTo, BitVec.getLsbD_or, BitVec.getLsbD_and, getLsbD_burnableBits e v j hj, getLsbD_lowMask]
  cases e.getLsbD j <;> simp [hj]

theorem achievedTo_and (e v : Byte) (k : Nat) : achievedTo e v k &&& e = e := by
  apply BitVec.eq_of_getLsbD_eq
  intro j hj
  rw [BitVec.getLsbD_and, getLsbD_achievedTo e v k j hj]
  cases e.getLsbD j <;> simp

theorem achievedTo_outside (e v : Byte) (k : Nat) : achievedTo e v k &&& ~~~(e ||| v) = 0x00#8 := by
  apply BitVec.eq_of_getLsbD_eq
  intro j hj
  rw [BitVec.getLsbD_and, getLsbD_achievedTo e v k j hj, BitVec.getLsbD_not, BitVec.getLsbD_or]
  cases e.getLsbD j <;> cases v.getLsbD j <;> simp

/-- The target is achieved exactly when nothing is impossible and the loop ran through. -/
theorem achievedTo_eq_target_iff {e v : Byte} {k : Nat} :
    achievedTo e v k = v ↔
      (∀ j < 8, ¬ (e.getLsbD j = true ∧ v.getLsbD j = false)) ∧ ∀ j < 8, (burnableBits e v).getLsbD j = true → j < k := by
  rw [BitVec.eq_of_getLsbD_eq_iff, ← forall₂_and]
  refine forall₂_congr fun j hj => ?_
  rw [getLsbD_achievedTo e v k j hj, getLsbD_burnableBits e v j hj]
  cases e.getLsbD j <;> cases v.getLsbD j <;> simp

theorem impossibleBits_eq_zero_iff {e v : Byte} :
    impossibleBits e v = 0x00#8 ↔ ∀ j < 8, ¬ (e.getLsbD j = true ∧ v.getLsbD j = false) := by
  rw [BitVec.eq_of_getLsbD_eq_iff]
  refine forall₂_congr fun j hj => ?_
  rw [getLsbD_impossibleBits e v j hj]
  cases e.getLsbD j <;> cases v.getLsbD j <;> simp

theorem impossibleBits_eq_zero_iff_at {e v : Byte} : impossibleBits e v = 0x00#8 ↔ impossibleAt e v = 8 := by
  rw [impossibleBits_eq_zero_iff]
  have hle := impossibleAt_le e v
  have hiff := le_impossibleAt_iff (e := e) (v := v) (m := 8)
  exact ⟨fun h => le_antisymm hle (hiff.mpr ⟨le_rfl, h⟩), fun h => (hiff.mp h.ge).2⟩

theorem burnableBits_self (e : Byte) : burnableBits e e = 0x00#8 := by
  apply BitVec.eq_of_getLsbD_eq
  intro j hj
  rw [getLsbD_burnableBits e e j hj]
  simp

theorem pulseCount_of_no_fail {e v : Byte} {d : Nat} (h : failsAt e v d = 8) :
    pulseCount e v d = popcount (burnableBits e v &&& lowMask (impossibleAt e v)) := by
  rw [pulseCount, if_neg (by omega)]

theorem pulseCount_of_fail {e v : Byte} {d : Nat} (h : failsAt e v d < 8) :
    pulseCount e v d = popcount (burnableBits e v &&& lowMask (failsAt e v d + 1)) := by
  obtain ⟨hlt, -⟩ := failsAt_lt h
  rw [pulseCount, if_pos h, Nat.min_eq_right hlt]

theorem pulseCount_le (e v : Byte) (d : Nat) : pulseCount e v d ≤ 8 := by
  unfold pulseCount
  split <;> exact popcount_le _

theorem popcount_zero_and (w : Byte) : popcount (0x00#8 &&& w) = 0 := by
  rw [BitVec.zero_and]
  rfl

theorem achievedTo_self (e : Byte) (k : Nat) : achievedTo e e k = e := by
  rw [achievedTo, burnableBits_self, BitVec.zero_and, BitVec.or_zero]

theorem simulatedByte_eq_target_iff {e v : Byte} : simulatedByte e v = v ↔ impossibleBits e v = 0x00#8 := by
  rw [simulatedByte_eq, achievedTo_eq_target_iff, ← impossibleBits_eq_zero_iff]
  refine and_iff_left_of_imp fun h j hj _ => ?_
  rwa [impossibleBits_eq_zero_iff_at.mp h]

theorem programmedByte_eq_target_iff {e v : Byte} {d : Nat} :
    programmedByte e v d = v ↔ impossibleBits e v = 0x00#8 ∧ failsAt e v d = 8 := by
  rw [programmedByte_eq, achievedTo_eq_target_iff, ← impossibleBits_eq_zero_iff]
  refine and_congr_right fun h => ?_
  rw [impossibleBits_eq_zero_iff_at.mp h, Nat.min_eq_right (failsAt_le e v d)]
  refine ⟨fun hall => le_antisymm (failsAt_le e v d) (not_lt.mp fun hlt => ?_), fun h j hj _ => by rwa [h]⟩
  obtain ⟨-, hburn⟩ := failsAt_lt hlt
  exact lt_irrefl _ (hall _ hlt hburn)

theorem programmedByte_of_no_fail {e v : Byte} {d : Nat} (h : failsAt e v d = 8) :
    programmedByte e v d = simulatedByte e v := by
  rw [programmedByte_eq, simulatedByte_eq, h, Nat.min_eq_left (impossibleAt_le e v)]

theorem failsAt_self (e : Byte) (d : Nat) : failsAt e e d = 8 :=
  le_antisymm (failsAt_le e e d) (le_failsAt_iff.mpr ⟨le_rfl, fun j _ _ hburn => by simp [burnableBits_self] at hburn⟩)

theorem pulseCount_self (e : Byte) (d : Nat) : pulseCount e e d = 0 := by
  rw [pulseCount_of_no_fail (failsAt_self e d), burnableBits_self, popcount_zero_and]

/-- Settles O38: all from what the bits of the closed form are. -/
theorem burnConsequences : Obligations.BurnConsequences := by
  intro e v d
  refine ⟨achievedTo_and e v _, achievedTo_and e v _, achievedTo_outside e v _, achievedTo_outside e v _,
    simulatedByte_eq_target_iff, programmedByte_eq_target_iff, ?_, programmedByte_of_no_fail, pulseCount_le e v d⟩
  rintro rfl
  exact ⟨pulseCount_self e d, achievedTo_self e _⟩

end Sys2Proof.Machine

/-! SUPPORT. The commands `w` and `s` against the closed form (41_commands.md R123, R124, 42_programming_engine.md R139 to R141):
the bit loop is followed from position to position, each pulse with its draw. -/

namespace Sys2Proof.Machine

/-! ### The closed form in the two modes -/

/-- Where the loop stops. -/
def burnStop (real : Bool) (e v : Byte) (d : Nat) : Nat :=
  if real then min (impossibleAt e v) (failsAt e v d) else impossibleAt e v

/-- How many pulses it has made. -/
def burnPulses (real : Bool) (e v : Byte) (d : Nat) : Nat := if real then pulseCount e v d else 0

/-- How many pulses have been made for the bits below a position. -/
def pulsesBelow (real : Bool) (e v : Byte) (i : Nat) : Nat :=
  if real then popcount (burnableBits e v &&& lowMask i) else 0

section
variable {real : Bool} {e v : Byte} {d i k : Nat}

/-- The loop may come to position `i`: nothing below is impossible, and no pulse below has failed. -/
structure reachesBit (real : Bool) (e v : Byte) (d i : Nat) : Prop where
  possible : i ≤ impossibleAt e v
  blown : real = true → i ≤ failsAt e v d

theorem reachesBit_zero : reachesBit real e v d 0 := ⟨Nat.zero_le _, fun _ => Nat.zero_le _⟩

/-- Over bits that are as the target wants them the loop goes on. -/
theorem reachesBit.skip (h : reachesBit real e v d i) (hk : k ≤ 8)
    (hsame : ∀ j, i ≤ j → j < k → e.getLsbD j = v.getLsbD j) : reachesBit real e v d k := by
  have hnone : ∀ j, i ≤ j → j < k → (burnableBits e v).getLsbD j = false := fun j hij hjk => by
    rw [getLsbD_burnableBits e v j (hjk.trans_le hk), hsame j hij hjk]
    cases v.getLsbD j <;> rfl
  obtain ⟨hpossible, hblown⟩ := h
  refine ⟨le_impossibleAt_iff.mpr ⟨hk, fun j hjk => ?_⟩, fun hreal => le_failsAt_iff.mpr ⟨hk, fun j hjk himp hburn => ?_⟩⟩
  · by_cases hji : j < i
    · exact (le_impossibleAt_iff.mp hpossible).2 j hji
    · rw [hsame j (not_lt.mp hji) hjk]
      cases v.getLsbD j <;> simp
  · by_cases hji : j < i
    · exact (le_failsAt_iff.mp (hblown hreal)).2 j hji himp hburn
    · cases hburn.symm.trans (hnone j (not_lt.mp hji) hjk)

/-- Over bits that are as the target wants them there is nothing to burn. -/
theorem burnable_lowMask_skip (hik : i ≤ k) (hk : k ≤ 8) (hsame : ∀ j, i ≤ j → j < k → e.getLsbD j = v.getLsbD j) :
    burnableBits e v &&& lowMask k = burnableBits e v &&& lowMask i :=
  and_lowMask_congr hik fun j hij hjk => by
    rw [getLsbD_burnableBits e v j (hjk.trans_le hk), hsame j hij hjk]
    cases v.getLsbD j <;> rfl

theorem achievedTo_skip (hik : i ≤ k) (hk : k ≤ 8) (hsame : ∀ j, i ≤ j → j < k → e.getLsbD j = v.getLsbD j) :
    achievedTo e v k = achievedTo e v i ∧ pulsesBelow real e v k = pulsesBelow real e v i := by
  rw [achievedTo, achievedTo, pulsesBelow, pulsesBelow, burnable_lowMask_skip hik hk hsame]
  exact ⟨rfl, rfl⟩

/-- The loop ran through. -/
theorem reachesBit.done (h : reachesBit real e v d 8) :
    burnStop real e v d = 8 ∧ burnPulses real e v d = pulsesBelow real e v 8 := by
  have himp : impossibleAt e v = 8 := le_antisymm (impossibleAt_le e v) h.possible
  unfold burnStop burnPulses pulsesBelow
  cases real with
  | false => exact ⟨himp, rfl⟩
  | true =>
    have hfails : failsAt e v d = 8 := le_antisymm (failsAt_le e v d) (h.blown rfl)
    exact ⟨by simp [himp, hfails], by simp [pulseCount_of_no_fail hfails, himp]⟩

/-- The loop stops at an impossible bit. -/
theorem reachesBit.impossible (h : reachesBit real e v d k) (hk : k < 8) (hset : e.getLsbD k = true)
    (hunwanted : v.getLsbD k = false) :
    burnStop real e v d = k ∧ burnPulses real e v d = pulsesBelow real e v k := by
  have himp : impossibleAt e v = k :=
    lowest_eq (by rw [getLsbD_impossibleBits e v k hk, hset, hunwanted]; rfl) h.possible
  unfold burnStop burnPulses pulsesBelow
  cases real with
  | false => exact ⟨himp, rfl⟩
  | true =>
    have hfails : failsAt e v d = 8 := by
      refine le_antisymm (failsAt_le e v d) (not_lt.mp fun hlt => ?_)
      obtain ⟨hbelow, -⟩ := failsAt_lt hlt
      exact absurd (h.blown rfl) (not_le.mpr (himp ▸ hbelow))
    exact ⟨by simp [himp, hfails, hk.le], by simp [pulseCount_of_no_fail hfails, himp]⟩

theorem getLsbD_burnableBits_of (hk : k < 8) (hunset : e.getLsbD k = false) (hwanted : v.getLsbD k = true) :
    (burnableBits e v).getLsbD k = true := by
  rw [getLsbD_burnableBits e v k hk, hunset, hwanted]
  rfl

theorem reachesBit.lt_impossibleAt (h : reachesBit real e v d k) (hk : k < 8) (hunset : e.getLsbD k = false) :
    k < impossibleAt e v := by
  refine le_impossibleAt_iff.mpr ⟨hk, fun j hj => ?_⟩
  obtain rfl | hj := Nat.eq_or_lt_of_le (Nat.lt_succ_iff.mp hj)
  · simp [hunset]
  · exact (le_impossibleAt_iff.mp h.possible).2 j hj

/-- A burnable bit that is recorded: the loop goes on behind it. -/
theorem reachesBit.record (h : reachesBit real e v d k) (hk : k < 8) (hunset : e.getLsbD k = false)
    (hblows : real = true → Config.fuseBlows (d + pulsesBelow real e v k) = true) :
    reachesBit real e v d (k + 1) := by
  refine ⟨h.lt_impossibleAt hk hunset, fun hreal => le_failsAt_iff.mpr ⟨hk, fun j hj himp hburn => ?_⟩⟩
  obtain rfl | hj := Nat.eq_or_lt_of_le (Nat.lt_succ_iff.mp hj)
  · have hblown := hblows hreal
    rw [pulsesBelow, if_pos hreal] at hblown
    rw [failsBit, hblown]
    rfl
  · exact (le_failsAt_iff.mp (h.blown hreal)).2 j hj himp hburn

theorem achievedTo_succ (hk : k < 8) (hunset : e.getLsbD k = false) (hwanted : v.getLsbD k = true) :
    achievedTo e v (k + 1) = achievedTo e v k ||| onehot8 k := by
  rw [achievedTo, and_lowMask_succ hk (getLsbD_burnableBits_of hk hunset hwanted), achievedTo, BitVec.or_assoc]

theorem pulsesBelow_succ (hk : k < 8) (hunset : e.getLsbD k = false) (hwanted : v.getLsbD k = true) :
    pulsesBelow true e v (k + 1) = pulsesBelow true e v k + 1 :=
  popcount_and_lowMask_succ hk (getLsbD_burnableBits_of hk hunset hwanted)

/-- A pulse that does not blow its fuse: the loop stops there. -/
theorem reachesBit.fails (h : reachesBit true e v d k) (hk : k < 8) (hunset : e.getLsbD k = false)
    (hwanted : v.getLsbD k = true) (hblows : Config.fuseBlows (d + pulsesBelow true e v k) = false) :
    burnStop true e v d = k ∧ burnPulses true e v d = pulsesBelow true e v k + 1 := by
  have himp := h.lt_impossibleAt hk hunset
  have hburn := getLsbD_burnableBits_of hk hunset hwanted
  have hfails : failsAt e v d = k := by
    refine failsAt_eq himp hburn ?_ (h.blown rfl)
    rw [failsBit, show d + popcount (burnableBits e v &&& lowMask k) = d + pulsesBelow true e v k from rfl, hblows]
    rfl
  refine ⟨?_, ?_⟩
  · show min (impossibleAt e v) (failsAt e v d) = k
    rw [hfails, Nat.min_eq_right himp.le]
  · show pulseCount e v d = _
    rw [pulseCount_of_fail (hfails ▸ hk), hfails]
    exact popcount_and_lowMask_succ hk hburn

theorem pulsesBelow_zero (real : Bool) (e v : Byte) : pulsesBelow real e v 0 = 0 := by
  rw [pulsesBelow, and_lowMask_zero]
  split <;> rfl

/-- There is a bit to burn. -/
theorem pulses_ne_zero (hlt : k < impossibleAt e v) (hk : k < 8) (hburn : (burnableBits e v).getLsbD k = true) :
    burnableBits e v &&& lowMask (impossibleAt e v) ≠ 0x00#8 := by
  intro hzero
  have hbit := congrArg (BitVec.getLsbD · k) hzero
  simp only [BitVec.getLsbD_and, getLsbD_lowMask, hburn] at hbit
  simp [hk, hlt] at hbit

theorem achievedTo_zero (e v : Byte) : achievedTo e v 0 = e := by
  rw [achievedTo, and_lowMask_zero, BitVec.or_zero]

end

/-! ### The chip between two bits -/

/-- The chip outside the pulses of a burn: `c₀` is the chip after the sample, `v` the byte achieved, `n` the pulses made; where
there are pulses to make (`burning`) the addressed cell holds `v`, else no cell changes. -/
structure Chip.burntBy (c₀ : Chip) (burning : Bool) (addr : CellAddr) (v : Byte) (n : Nat) (c : Chip) : Prop where
  socket : c.socket = c₀.socket
  quiet : c.stage = .quiet
  canonical : c.cells.wf = true
  draws : c.draws = c₀.draws + n
  kept : burning = false → c.cells = c₀.cells
  cells : burning = true → ∀ a, readCell c.cells a = if a = addr.toNat then v else readCell c₀.cells a

section
variable {c₀ c : Chip} {burning : Bool} {chip : Profile} {addr : CellAddr} {v w : Byte} {n k : Nat}

theorem Chip.burntBy.withHeld (h : c₀.burntBy burning addr v n c) (held : Nat) :
    c₀.burntBy burning addr v n { c with held := held } :=
  ⟨h.socket, h.quiet, h.canonical, h.draws, h.kept, h.cells⟩

/-- Where no pulse is made the byte achieved is the engine's alone. -/
theorem Chip.burntBy.simulates (h : c₀.burntBy false addr v n c) : c₀.burntBy false addr w n c := { h with cells := nofun }

theorem getLsbD_readCell_of_pulse (h : c₀.burntBy true addr v n c) (hk : k < 8) (hunset : v.getLsbD k = false) :
    (readCell (c.burn (drivenBus chip addr k)).cells addr.toNat).getLsbD k = Config.fuseBlows (c₀.draws + n) := by
  have hcell := c.burn_readCell (drivenBus chip addr k) h.canonical addr.toNat
  rw [hcell, show (drivenBus chip addr k).abus = addr from rfl, if_pos rfl, h.cells rfl, if_pos rfl, ← h.draws]
  cases Config.fuseBlows c.draws with
  | true => exact getLsbD_or_onehot8 v hk
  | false => exact hunset

/-- A pulse: the driven bit is set in the cell where the fuse of the draw blows (20_memory.md R51). -/
theorem Chip.burntBy.pulse (h : c₀.burntBy true addr v n c) (chip : Profile) (k : Nat) :
    c₀.burntBy true addr (if Config.fuseBlows (c₀.draws + n) then v ||| onehot8 k else v) (n + 1)
      ((c.burn (drivenBus chip addr k)).toStage .quiet) where
  socket := h.socket
  quiet := rfl
  canonical := c.burn_wf _ h.canonical
  draws := congrArg (· + 1) h.draws
  kept := nofun
  cells := fun _ a => by
    refine (c.burn_readCell (drivenBus chip addr k) h.canonical a).trans ?_
    rw [show (drivenBus chip addr k).abus = addr from rfl, h.cells rfl, if_pos rfl, h.draws, h.cells rfl]
    split
    · rfl
    · rfl

end

/-! ### The loop -/

theorem lineOf_burnCommand (real : Bool) (chip : Profile) (addr : CellAddr) (value : Byte) (p : Point) (u : State) :
    lineOf (burnCommand real chip addr value) p u = burnLine real chip addr value p u := by
  cases real <;> rfl

/-- The engine of a burn before the test of its loop at position `i`, with the chip as it then is. -/
structure State.loopsAt (t : State) (real burning : Bool) (chip : Profile) (addr : CellAddr) (c₀ : Chip) (e : Engine) (p : Point)
    (i : Nat) : Prop where
  running : p ≠ .idle
  mode : e.real = real
  reaches : reachesBit real e.existing e.target c₀.draws i
  achieved : e.achieved = achievedTo e.existing e.target i
  comes : ∃ k c, c₀.burntBy burning addr e.achieved (pulsesBelow real e.existing e.target i) c ∧
    t.isAt k (e.lineAt p) (poweredBus chip addr false) c []
  loop : ∀ (u : State) (b : Bus) (c : Chip) (chip' : Profile) (value : Byte),
    burnLine real chip' addr value p (u.standing (e.lineAt p) b c) = .next (bitLoop i (u.standing (e.lineAt p) b c))

/-- The burn has left its loop, and the power goes down. -/
def State.burnt (t : State) (real burning : Bool) (chip : Profile) (addr : CellAddr) (c₀ : Chip) (e : Engine) (bit : BitVec 4) : Prop :=
  ∃ k ok c, (real = false → ok = e.ok) ∧
    c₀.burntBy burning addr (achievedTo e.existing e.target (burnStop real e.existing e.target c₀.draws))
      (burnPulses real e.existing e.target c₀.draws) c ∧
    t.isAt k ({ e with achieved := achievedTo e.existing e.target (burnStop real e.existing e.target c₀.draws),
                       bit := bit, ok := ok }.lineAt .powerOff) (poweredBus chip addr false) c []

section
variable {t : State} {real burning : Bool} {chip : Profile} {addr : CellAddr} {value : Byte} {c₀ : Chip} {e : Engine} {p : Point}
  {i k : Nat}

/-- The loop is left with the power going down, nothing more being recorded. -/
theorem State.loopsAt.leaves (h : t.loopsAt real burning chip addr c₀ e p i)
    (hlive : t.command.live = some (burnCommand real chip addr value))
    (hline : ∀ u : State, u.eng = e.lineAt p → bitLoop i u = (u.setBit k).powerDown)
    (hachieved : achievedTo e.existing e.target k = achievedTo e.existing e.target i ∧
      pulsesBelow real e.existing e.target k = pulsesBelow real e.existing e.target i)
    (hstop : burnStop real e.existing e.target c₀.draws = k ∧
      burnPulses real e.existing e.target c₀.draws = pulsesBelow real e.existing e.target k) :
    t.burnt real burning chip addr c₀ e (BitVec.ofNat 4 (burnStop real e.existing e.target c₀.draws)) := by
  obtain ⟨hat, hpulses⟩ := hstop
  obtain ⟨hsame, hbelow⟩ := hachieved
  obtain ⟨n, c, hburnt, hcomes⟩ := h.comes
  refine ⟨n + 1, e.ok, c.unchanged, fun _ => rfl, ?_, ?_⟩
  · rw [hat, hpulses, hsame, ← h.achieved, hbelow]
    exact hburnt.withHeld _
  · rw [hat, hsame, ← h.achieved]
    refine hcomes.line hlive h.running nofun observe_same fun u => ?_
    rw [lineOf_burnCommand, h.loop, hline _ rfl]
    rfl

/-- After a recorded bit the loop goes on behind it. -/
theorem burnLine_bitNext (hbit : e.bit.toNat = k) (u : State) (b : Bus) (c : Chip) :
    burnLine real chip addr value .bitNext (u.standing (e.lineAt .bitNext) b c) =
      .next (bitLoop (k + 1) (u.standing (e.lineAt .bitNext) b c)) := by
  subst hbit
  rfl

/-- In simulate mode a burnable bit is recorded at once. -/
theorem State.loopsAt.records (h : t.loopsAt false false chip addr c₀ e p i)
    (hlive : t.command.live = some (burnCommand false chip addr value))
    (hnext : nextBit e.existing e.target (8 - i) i = .burnable k) (hreaches : reachesBit false e.existing e.target c₀.draws k)
    (hachieved : e.achieved = achievedTo e.existing e.target k) (hk : k < 8) (hunset : e.existing.getLsbD k = false)
    (hwanted : e.target.getLsbD k = true) :
    t.loopsAt false false chip addr c₀ { e with bit := BitVec.ofNat 4 k, achieved := e.achieved ||| onehot8 k } .bitNext (k + 1) where
  running := nofun
  mode := h.mode
  reaches := hreaches.record hk hunset nofun
  achieved := by rw [hachieved]; exact (achievedTo_succ hk hunset hwanted).symm
  comes := by
    obtain ⟨n, c, hburnt, hcomes⟩ := h.comes
    refine ⟨n + 1, c.unchanged, hburnt.simulates.withHeld _, hcomes.line hlive h.running nofun observe_same fun u => ?_⟩
    rw [lineOf_burnCommand, h.loop, bitLoop_of_burnable_simulated hnext h.mode]
    rfl
  loop := fun u b c chip' value' => burnLine_bitNext (toNat_bit hk.le) u b c

/-- In real mode a burnable bit is pulsed and verified: `ok` tells whether its fuse has blown. -/
theorem State.loopsAt.pulses (h : t.loopsAt true true chip addr c₀ e p i)
    (hlive : t.command.live = some (burnCommand true chip addr value)) (hmatch : c₀.socket.matches chip = true)
    (haddr : addrInRange chip addr = true) (hnext : nextBit e.existing e.target (8 - i) i = .burnable k) (hk : k < 8)
    (hunset : e.achieved.getLsbD k = false) :
    ∃ n c ok, ok = Config.fuseBlows (c₀.draws + pulsesBelow true e.existing e.target i) ∧
      c₀.burntBy true addr (if ok then e.achieved ||| onehot8 k else e.achieved)
        (pulsesBelow true e.existing e.target i + 1) c ∧
      t.isAt n ({ e with bit := BitVec.ofNat 4 k, ok := ok }.lineAt .verifyTest) (poweredBus chip addr false) c [] := by
  obtain ⟨n, c, hburnt, hcomes⟩ := h.comes
  have hsocket : c.socket.matches chip = true := hburnt.socket ▸ hmatch
  have hselected : t.isAt (n + 1) ({ e with bit := BitVec.ofNat 4 k }.lineAt .burnRaise) (drivenBus chip addr k)
      (c.toStage .selected) [] := by
    refine hcomes.line hlive h.running nofun (observe_drivenBus hk hburnt.quiet hsocket haddr) fun u => ?_
    rw [lineOf_burnCommand, h.loop, bitLoop_of_burnable_real hnext h.mode]
    rfl
  have hpulsed := hselected.burns hlive rfl rfl hk
  have hpos := nCool_pos
  have hverified := hpulsed.verified hlive rfl rfl hsocket haddr (j := Config.nCool - 1) (by omega)
  rw [Nat.sub_self] at hverified
  have hok : (readCell (c.burn (drivenBus chip addr k)).cells addr.toNat).getLsbD (BitVec.ofNat 4 k).toNat =
      Config.fuseBlows (c₀.draws + pulsesBelow true e.existing e.target i) := by
    rw [toNat_bit hk.le]
    exact getLsbD_readCell_of_pulse hburnt hk hunset
  have hafter := (hburnt.pulse chip k).withHeld (1 + (Config.nCool - 1))
  rw [← hok] at hafter
  exact ⟨_, _, _, hok, hafter, hverified⟩

/-- From a verified bit the loop goes on where the fuse has blown, and the power goes down where it has not. -/
theorem State.loopsAt.resolves (h : t.loopsAt true true chip addr c₀ e p i)
    (hlive : t.command.live = some (burnCommand true chip addr value)) (hmatch : c₀.socket.matches chip = true)
    (haddr : addrInRange chip addr = true) (hnext : nextBit e.existing e.target (8 - i) i = .burnable k)
    (hreaches : reachesBit true e.existing e.target c₀.draws k)
    (hachieved : e.achieved = achievedTo e.existing e.target k)
    (hpulses : pulsesBelow true e.existing e.target k = pulsesBelow true e.existing e.target i) (hk : k < 8)
    (hunset : e.existing.getLsbD k = false) (hwanted : e.target.getLsbD k = true) :
    t.loopsAt true true chip addr c₀
      { e with bit := BitVec.ofNat 4 k, ok := true, achieved := e.achieved ||| onehot8 k } .bitNext (k + 1) ∨
    t.burnt true true chip addr c₀ e (BitVec.ofNat 4 (burnStop true e.existing e.target c₀.draws)) := by
  have hbit : (BitVec.ofNat 4 k).toNat = k := toNat_bit hk.le
  have hclear : e.achieved.getLsbD k = false := by
    rw [hachieved, getLsbD_achievedTo _ _ _ _ hk, hunset]
    simp
  obtain ⟨n, c, ok, hok, hburnt, hverified⟩ := h.pulses hlive hmatch haddr hnext hk hclear
  rw [← hpulses] at hok hburnt
  cases ok with
  | true =>
    left
    refine ⟨nofun, h.mode, hreaches.record hk hunset fun _ => hok.symm, ?_, ⟨n + 1, c.unchanged, ?_, ?_⟩,
      fun u b c chip' value' => burnLine_bitNext hbit u b c⟩
    · rw [hachieved]
      exact (achievedTo_succ hk hunset hwanted).symm
    · rw [pulsesBelow_succ hk hunset hwanted]
      exact hburnt.withHeld _
    · refine hverified.line hlive nofun nofun observe_same fun u => ?_
      rw [lineOf_burnCommand, burnLine, verifyTest_of_ok rfl hbit]
      rfl
  | false =>
    right
    obtain ⟨hstop, hcount⟩ := hreaches.fails hk hunset hwanted hok.symm
    refine ⟨n + 1, false, c.unchanged, nofun, ?_, ?_⟩
    · rw [hstop, hcount, ← hachieved]
      exact hburnt.withHeld _
    · rw [hstop, ← hachieved]
      refine hverified.line hlive nofun nofun observe_same fun u => ?_
      rw [lineOf_burnCommand, burnLine, verifyTest_of_not_ok rfl]
      rfl

/-- The loop from position `i` on, to its end (42_programming_engine.md R139). -/
theorem State.loopsAt.ends (h : t.loopsAt real burning chip addr c₀ e p i)
    (hlive : t.command.live = some (burnCommand real chip addr value))
    (hsimulate : real = false → burning = false)
    (hburning : real = true → burnableBits e.existing e.target &&& lowMask (impossibleAt e.existing e.target) ≠ 0x00#8 →
      burning = true ∧ c₀.socket.matches chip = true) (haddr : addrInRange chip addr = true) (hi : i ≤ 8) :
    t.burnt real burning chip addr c₀ e (BitVec.ofNat 4 (burnStop real e.existing e.target c₀.draws)) := by
  induction hleft : 8 - i using Nat.strong_induction_on generalizing i e p with | _ left ih
  have hspec := nextBit_spec e.existing e.target (8 - i) i
  cases hnext : nextBit e.existing e.target (8 - i) i with
  | done =>
    rw [hnext] at hspec
    have hsame : ∀ j, i ≤ j → j < 8 → e.existing.getLsbD j = e.target.getLsbD j := fun j hij hj => hspec j hij (by omega)
    refine h.leaves (k := 8) hlive (fun u hu => ?_) (achievedTo_skip hi le_rfl hsame) (h.reaches.skip le_rfl hsame).done
    exact bitLoop_of_done (by rw [hu]; exact hnext)
  | impossible k =>
    rw [hnext] at hspec
    obtain ⟨hik, -, hset, hunwanted, hsame⟩ := hspec
    obtain ⟨-, hk⟩ := nextBit_impossible_bounds hnext
    refine h.leaves (k := k) hlive (fun u hu => ?_) (achievedTo_skip hik hk.le hsame)
      ((h.reaches.skip hk.le hsame).impossible hk hset hunwanted)
    exact bitLoop_of_impossible (by rw [hu]; exact hnext)
  | burnable k =>
    rw [hnext] at hspec
    obtain ⟨hik, -, hunset, hwanted, hsame⟩ := hspec
    obtain ⟨-, hk⟩ := nextBit_burnable_bounds hnext
    obtain ⟨hach, hpulses⟩ := achievedTo_skip (real := real) hik hk.le hsame
    have hreaches := h.reaches.skip hk.le hsame
    have hachieved := h.achieved.trans hach.symm
    cases real with
    | false =>
      obtain rfl := hsimulate rfl
      obtain ⟨n, ok, c, hok, hend⟩ := ih (8 - (k + 1)) (by omega)
        (h.records hlive hnext hreaches hachieved hk hunset hwanted) nofun (by omega) rfl
      exact ⟨n, ok, c, hok, hend⟩
    | true =>
      obtain ⟨rfl, hmatch⟩ := hburning rfl (pulses_ne_zero (hreaches.lt_impossibleAt hk hunset) hk
        (getLsbD_burnableBits_of hk hunset hwanted))
      obtain hgoes | hends := h.resolves hlive hmatch haddr hnext hreaches hachieved hpulses hk hunset hwanted
      · obtain ⟨n, ok, c, -, hend⟩ := ih (8 - (k + 1)) (by omega) hgoes hburning (by omega) rfl
        exact ⟨n, ok, c, nofun, hend⟩
      · exact hends

end

end Sys2Proof.Machine

/-! SUPPORT. The commands `w` and `s` from the end of their line to their response (41_commands.md R123, R124), with whatever
stands in the socket. -/

namespace Sys2Proof.Machine

/-! ### Up to the test of `BurnByte` -/

/-- The engine at the test: the existing byte sampled, the target and the mode set. -/
def burnStart (e : Engine) (real : Bool) (existing value : Byte) : Engine :=
  { e with existing := existing, target := value, real := real, achieved := existing }

/-- The engine after `BurnByte`. -/
def burnEnd (e : Engine) (real : Bool) (existing value : Byte) (d : Nat) (ok : Bool) : Engine :=
  { burnStart e real existing value with
    achieved := achievedTo existing value (burnStop real existing value d)
    bit := if existing = value then e.bit else BitVec.ofNat 4 (burnStop real existing value d)
    ok := ok }

section
variable {s t : State} {real burning : Bool} {chip : Profile} {addr : CellAddr} {value : Byte}

theorem profileOf_burnCommand : profileOf (burnCommand real chip addr value) = chip := by cases real <;> rfl

theorem afterPath_burnCommand : afterPath (burnCommand real chip addr value) = .readAddr := by cases real <;> rfl

theorem burnCommand_ne_version : burnCommand real chip addr value ≠ .version := by cases real <;> exact nofun

theorem payloadOf_burnCommand (e : Engine) : payloadOf (burnCommand real chip addr value) e = hex2 e.achieved := by
  cases real <;> rfl

/-- A burn comes to the test of `BurnByte` with the byte it has sampled (42_programming_engine.md R133). -/
theorem State.begun.burnTest (h : s.begun (burnCommand real chip addr value) t) (haddr : addrInRange chip addr = true) :
    ∃ k held, t.isAt k ((burnStart s.eng real (s.chip.sampled chip addr.toNat) value).lineAt .burnTest)
      (poweredBus chip addr false) (s.chip.drawn (s.chip.sampleDraws chip) held) [] := by
  have hquiet := h.chip_quiet
  obtain ⟨k, hup⟩ := h.powersUp burnCommand_ne_version
  rw [profileOf_burnCommand, afterPath_burnCommand] at hup
  obtain ⟨k, held, hread⟩ := hup.reads (e₁ := s.eng) (e₂ := fun v => { s.eng with existing := v }) (q := .pathOff)
    (fun v u => (u.setExisting v).goto .pathOff) h.live nofun nofun hquiet haddr
    (fun u => by rw [lineOf_burnCommand]; rfl) (fun u => by rw [lineOf_burnCommand]; rfl) (fun _ _ _ => rfl)
  have hoff := hread.line (p := .pathOff)
    (e' := Engine.lineAt { s.eng with existing := s.chip.sampled chip addr.toNat } .setTarget) h.live nofun nofun
    (observe_drawn (c := (s.chip.drawn 0 1).drawn (s.chip.sampleDraws chip) held) (old := poweredBus chip addr true)
      (new := poweredBus chip addr false) hquiet rfl (by simp [poweredBus]))
    fun u => by rw [lineOf_burnCommand]; rfl
  have htarget := hoff.line (p := .setTarget) (e := { s.eng with existing := s.chip.sampled chip addr.toNat })
    (e' := Engine.lineAt { s.eng with existing := s.chip.sampled chip addr.toNat, target := value, real := real } .copyExisting)
    h.live nofun nofun observe_same fun u => by rw [lineOf_burnCommand]; rfl
  have hcopied := htarget.line (p := .copyExisting)
    (e := { s.eng with existing := s.chip.sampled chip addr.toNat, target := value, real := real })
    (e' := (burnStart s.eng real (s.chip.sampled chip addr.toNat) value).lineAt .burnTest)
    h.live nofun nofun observe_same fun u => by rw [lineOf_burnCommand]; rfl
  rw [drawn_drawn, Nat.zero_add] at hcopied
  exact ⟨_, _, hcopied⟩

end


/-! ### The whole burn -/

theorem burnPulses_self (real : Bool) (e : Byte) (d : Nat) : burnPulses real e e d = 0 := by
  cases real with
  | false => rfl
  | true => exact pulseCount_self e d

section
variable {s t : State} {real burning : Bool} {chip : Profile} {addr : CellAddr} {value : Byte}

/-- The sample changes no cell. -/
theorem State.begun.burntBy_sampled {i : Instr} (h : s.begun i t)
    (hmatch : burning = true → s.chip.socket.matches chip = true) (held : Nat) :
    (s.chip.drawn (s.chip.sampleDraws chip) 0).burntBy burning addr (s.chip.sampled chip addr.toNat) 0
      (s.chip.drawn (s.chip.sampleDraws chip) held) where
  socket := rfl
  quiet := h.chip_quiet
  canonical := by
    have hcells := h.inv.cells
    rwa [h.chip] at hcells
  draws := rfl
  kept := fun _ => rfl
  cells := fun hburning a => by
    split
    · next ha =>
      subst ha
      exact (if_pos (hmatch hburning)).symm
    · rfl

/-- Where the sampled byte is not the target the loop is entered at position 0. -/
theorem State.begun.burnLoop (h : s.begun (burnCommand real chip addr value) t) (haddr : addrInRange chip addr = true)
    (hmatch : burning = true → s.chip.socket.matches chip = true) (hdiffers : s.chip.sampled chip addr.toNat ≠ value) :
    t.loopsAt real burning chip addr (s.chip.drawn (s.chip.sampleDraws chip) 0)
      (burnStart s.eng real (s.chip.sampled chip addr.toNat) value) .burnTest 0 where
  running := nofun
  mode := rfl
  reaches := reachesBit_zero
  achieved := (achievedTo_zero _ _).symm
  comes := by
    obtain ⟨k, held, htest⟩ := h.burnTest haddr
    refine ⟨k, _, ?_, htest⟩
    rw [pulsesBelow_zero]
    exact h.burntBy_sampled hmatch held
  loop := fun u b c chip' value' => congrArg Host.Outcome.next (burnTest_of_differs hdiffers)

/-- A burn comes to the second line of `PowerDown` with the byte of the closed form (42_programming_engine.md R139, R140). -/
theorem State.begun.burns (h : s.begun (burnCommand real chip addr value) t) (haddr : addrInRange chip addr = true)
    (hmatch : burning = true → s.chip.socket.matches chip = true) (hsimulate : real = false → burning = false)
    (hburning : real = true → burnableBits (s.chip.sampled chip addr.toNat) value &&&
      lowMask (impossibleAt (s.chip.sampled chip addr.toNat) value) ≠ 0x00#8 → burning = true) :
    ∃ k ok c, (real = false → ok = s.eng.ok) ∧
      (s.chip.drawn (s.chip.sampleDraws chip) 0).burntBy burning addr
        (achievedTo (s.chip.sampled chip addr.toNat) value
          (burnStop real (s.chip.sampled chip addr.toNat) value (s.chip.draws + s.chip.sampleDraws chip)))
        (burnPulses real (s.chip.sampled chip addr.toNat) value (s.chip.draws + s.chip.sampleDraws chip)) c ∧
      t.isAt k ((burnEnd s.eng real (s.chip.sampled chip addr.toNat) value
        (s.chip.draws + s.chip.sampleDraws chip) ok).lineAt .powerOff) (poweredBus chip addr false) c [] := by
  by_cases hsame : s.chip.sampled chip addr.toNat = value
  · obtain ⟨k, held, htest⟩ := h.burnTest haddr
    have hburnt := h.burntBy_sampled (addr := addr) hmatch (held + 1)
    rw [hsame] at htest hburnt ⊢
    refine ⟨k + 1, s.eng.ok, (s.chip.drawn (s.chip.sampleDraws chip) held).unchanged, fun _ => rfl, ?_, ?_⟩
    · rw [achievedTo_self, burnPulses_self]
      exact hburnt
    · refine htest.line h.live nofun nofun observe_same fun u => ?_
      rw [lineOf_burnCommand, burnLine, burnTest_of_same rfl, burnEnd, if_pos rfl, achievedTo_self]
      rfl
  · obtain ⟨k, ok, c, hok, hburnt, hat⟩ := (h.burnLoop haddr hmatch hsame).ends h.live hsimulate
      (fun hreal hpulses => ⟨hburning hreal hpulses, hmatch (hburning hreal hpulses)⟩) haddr (Nat.zero_le _)
    refine ⟨k, ok, c, hok, hburnt, ?_⟩
    rw [burnEnd, if_neg hsame]
    exact hat

/-- A burn answers the byte of the closed form (41_commands.md R123, R124). -/
theorem burn_answers (hbegins : s.begins (burnCommand real chip addr value))
    (hmatch : burning = true → s.chip.socket.matches chip = true) (hsimulate : real = false → burning = false)
    (hburning : real = true → burnableBits (s.chip.sampled chip addr.toNat) value &&&
      lowMask (impossibleAt (s.chip.sampled chip addr.toNat) value) ≠ 0x00#8 → burning = true) :
    ∃ n u ok, runs n s = .next u ∧ (real = false → ok = s.eng.ok) ∧
      s.answered u (hex2 (achievedTo (s.chip.sampled chip addr.toNat) value
        (burnStop real (s.chip.sampled chip addr.toNat) value (s.chip.draws + s.chip.sampleDraws chip))) ++ okTrailer) ∧
      u.eng = burnEnd s.eng real (s.chip.sampled chip addr.toNat) value (s.chip.draws + s.chip.sampleDraws chip) ok ∧
      u.bus = restingBus chip addr ∧
      (s.chip.drawn (s.chip.sampleDraws chip) 0).burntBy burning addr
        (achievedTo (s.chip.sampled chip addr.toNat) value
          (burnStop real (s.chip.sampled chip addr.toNat) value (s.chip.draws + s.chip.sampleDraws chip)))
        (burnPulses real (s.chip.sampled chip addr.toNat) value (s.chip.draws + s.chip.sampleDraws chip)) u.chip := by
  have haddr : addrInRange chip addr = true := by
    have hwf := hbegins.wellFormed
    cases real <;> exact hwf
  obtain ⟨t, hbegun⟩ := hbegins.begun
  obtain ⟨k, ok, c, hok, hburnt, hdown⟩ := hbegun.burns haddr hmatch hsimulate hburning
  obtain ⟨n, u, hn, hanswered, heng, hbus, hchip⟩ := hbegun.answersOff burnCommand_ne_version hdown hburnt.quiet
  rw [payloadOf_burnCommand] at hanswered
  refine ⟨n, u, ok, hn, hok, hanswered, ?_, hbus, hchip ▸ hburnt.withHeld 2⟩
  rw [heng, burnEnd, burnStart, ← hbegun.idle]
  rfl

end

/-- Settles O32: the sample is the cell, and every pulse burns into it. -/
theorem programResult : Obligations.ProgramResult := by
  intro s chip addr value hbegins hmatch
  obtain ⟨n, t, ok, hn, -, hanswered, heng, hbus, hburnt⟩ :=
    burn_answers (real := true) (burning := true) hbegins (fun _ => hmatch) nofun fun _ _ => rfl
  simp only [Chip.sampled, Chip.sampleDraws, if_pos hmatch, Nat.add_zero] at hanswered heng hburnt
  refine ⟨hbegins.starts, n, t, hn, hanswered, hburnt.cells rfl, hburnt.draws, ?_, hbus⟩
  rw [heng]
  rfl

/-- Settles O33: the sample is the cell, and nothing is pulsed. -/
theorem simulateResult : Obligations.SimulateResult := by
  intro s chip addr value hbegins hmatch
  obtain ⟨n, t, ok, hn, hok, hanswered, heng, hbus, hburnt⟩ :=
    burn_answers (real := false) (burning := false) hbegins nofun (fun _ => rfl) nofun
  simp only [Chip.sampled, Chip.sampleDraws, if_pos hmatch, Nat.add_zero] at hanswered heng hburnt
  refine ⟨hbegins.starts, n, t, hn, hanswered, hburnt.kept rfl, hburnt.draws, ?_, hbus⟩
  rw [heng, hok rfl]
  rfl


/-! ### Without a chip of the profile -/

section
variable {s t : State} {i : Instr} {k : Nat} {p : Point} {e e' : Engine} {b b' : Bus} {c c₁ : Chip} {out : List Byte}
  {chip : Profile} {addr : CellAddr} {value : Byte}

/-- A line of which the chip makes a fault: the run stops there. -/
theorem State.isAt.stops {f : Fault} (h : t.isAt k (e.lineAt p) b c out) (hlive : t.command.live = some i) (hp : p ≠ .idle)
    (hobserve : c₁.observe b b' = .error f)
    (hline : ∀ u : State, lineOf i p (u.standing (e.lineAt p) b c) = .next (u.standing e' b' c₁)) :
    runs (k + 1) t = .fault f := by
  obtain ⟨u, hu, hkeeps⟩ := h
  have hblock := (blockStep_of_running (s := u.standing (e.lineAt p) b c) hp (hkeeps.command ▸ hlive)).trans
    ((exec_standing i hp u).trans (hline u))
  rw [runs_add hu]
  refine runs_succ_fault ?_
  have hstop : (u.standing e' b' c₁).chip.observe (u.standing (e.lineAt p) b c).bus (u.standing e' b' c₁).bus = .error f :=
    hobserve
  rw [step_of_not_rst (noReset_now (s := u.standing (e.lineAt p) b c) hkeeps.noReset), hblock, andThen_next,
    State.endStep, hstop]

end

section
variable {e v : Byte} {d k : Nat}

/-- The byte and the pulses of a burn that has no bit to burn (42_programming_engine.md R140). -/
theorem burn_of_no_pulses (h : burnableBits e v &&& lowMask (impossibleAt e v) = 0x00#8) :
    achievedTo e v (burnStop true e v d) = e ∧ burnPulses true e v d = 0 := by
  have hfails : failsAt e v d = 8 := by
    refine le_antisymm (failsAt_le e v d) (not_lt.mp fun hlt => ?_)
    obtain ⟨hbelow, hburn⟩ := failsAt_lt hlt
    exact pulses_ne_zero hbelow hlt hburn h
  have hstop : burnStop true e v d = impossibleAt e v :=
    (congrArg (min (impossibleAt e v)) hfails).trans (Nat.min_eq_left (impossibleAt_le e v))
  refine ⟨?_, ?_⟩
  · rw [hstop, achievedTo, h, BitVec.or_zero]
  · show pulseCount e v d = 0
    rw [pulseCount_of_no_fail hfails, h]
    rfl

/-- Where there is a bit to burn the loop comes to one. -/
theorem nextBit_of_pulses (h : burnableBits e v &&& lowMask (impossibleAt e v) ≠ 0x00#8) :
    ∃ k, k < 8 ∧ nextBit e v 8 0 = .burnable k := by
  have hspec := nextBit_spec e v 8 0
  have hnone : ∀ k ≤ 8, (∀ j, 0 ≤ j → j < k → e.getLsbD j = v.getLsbD j) → impossibleAt e v ≠ k := by
    rintro k hk hsame rfl
    exact h ((burnable_lowMask_skip (Nat.zero_le _) hk hsame).trans (and_lowMask_zero _))
  cases hnext : nextBit e v 8 0 with
  | done =>
    rw [hnext] at hspec
    have hsame : ∀ j, 0 ≤ j → j < 8 → e.getLsbD j = v.getLsbD j := fun j _ hj => hspec j (Nat.zero_le j) (by omega)
    have hreaches : reachesBit false e v 0 8 := reachesBit_zero.skip le_rfl hsame
    exact absurd hreaches.done.1 (hnone 8 le_rfl hsame)
  | impossible k =>
    rw [hnext] at hspec
    obtain ⟨-, -, hset, hunwanted, hsame⟩ := hspec
    obtain ⟨-, hk⟩ := nextBit_impossible_bounds (i := 0) hnext
    have hreaches : reachesBit false e v 0 k := reachesBit_zero.skip (by omega) hsame
    exact absurd (hreaches.impossible hk hset hunwanted).1 (hnone k (by omega) hsame)
  | burnable k =>
    obtain ⟨-, hk⟩ := nextBit_burnable_bounds (i := 0) hnext
    exact ⟨k, hk, rfl⟩

end

section
variable {s : State} {chip : Profile} {addr : CellAddr} {value : Byte}

/-- `w` with a bit to burn and no chip of the profile stops at its first pulse (20_memory.md R61). -/
theorem program_stops (hbegins : s.begins (.program chip addr value)) (hmismatch : s.chip.socket.matches chip = false)
    (hpulses : burnableBits (s.chip.sampled chip addr.toNat) value &&&
      lowMask (impossibleAt (s.chip.sampled chip addr.toNat) value) ≠ 0x00#8) :
    ∃ n, runs n s = .fault .programmingUnspecified := by
  obtain ⟨t, hbegun⟩ := hbegins.begun
  have hdiffers : s.chip.sampled chip addr.toNat ≠ value := fun hsame => hpulses (by
    rw [hsame, burnableBits_self, BitVec.zero_and])
  obtain ⟨k, hk, hnext⟩ := nextBit_of_pulses hpulses
  have hloop := State.begun.burnLoop (real := true) (burning := false) hbegun hbegins.wellFormed nofun hdiffers
  obtain ⟨n, c, hburnt, hcomes⟩ := hloop.comes
  have hstop : c.observe (poweredBus chip addr false) (drivenBus chip addr k) = .error .programmingUnspecified := by
    rw [observe_drivesLine hburnt.quiet
      (by simp [drivesLine, drivenBus, poweredBus, isOnehot_onehot8 k hk])]
    exact beginSequence_of_mismatch hbegins.wellFormed (hburnt.socket ▸ hmismatch)
  refine ⟨n + 1 + 1, (runs_succ hbegun.step).trans (State.isAt.stops
    (e' := Engine.lineAt { burnStart s.eng true (s.chip.sampled chip addr.toNat) value with bit := BitVec.ofNat 4 k } .burnRaise)
    hcomes hbegun.live nofun hstop fun u => ?_)⟩
  refine (hloop.loop u _ _ chip value).trans ?_
  rw [bitLoop_of_burnable_real hnext rfl]
  rfl

end

/-- Settles O37: the sample is a free byte; `s` goes on as with a chip, `w` too if it has no bit to burn, and else its first
pulse is the stop. -/
theorem burnsWithoutChip : Obligations.BurnsWithoutChip := by
  refine ⟨fun s chip addr value hbegins hmismatch => ?_, fun s chip addr value hbegins hmismatch => ⟨hbegins.starts, ?_⟩⟩
  · have hne : ¬ s.chip.socket.matches chip = true := by simp [hmismatch]
    obtain ⟨n, t, ok, hn, -, hanswered, -, -, hburnt⟩ :=
      burn_answers (real := false) (burning := false) hbegins nofun (fun _ => rfl) nofun
    simp only [Chip.sampled, Chip.sampleDraws, if_neg hne] at hanswered hburnt
    exact ⟨hbegins.starts, n, t, hn, hanswered, hburnt.kept rfl, hburnt.draws⟩
  · have hne : ¬ s.chip.socket.matches chip = true := by simp [hmismatch]
    have hsampled : s.chip.sampled chip addr.toNat = Config.strayByte s.chip.draws := if_neg hne
    rw [← hsampled]
    split
    · next hpulses =>
      obtain ⟨n, t, ok, hn, -, hanswered, -, -, hburnt⟩ :=
        burn_answers (real := true) (burning := false) hbegins nofun nofun fun _ hsome => absurd hpulses hsome
      obtain ⟨hachieved, hcount⟩ := burn_of_no_pulses (d := s.chip.draws + s.chip.sampleDraws chip) hpulses
      rw [hachieved] at hanswered
      have hdraws := hburnt.draws
      rw [hcount, Chip.sampleDraws, if_neg hne] at hdraws
      exact ⟨n, t, hn, hanswered, hburnt.kept rfl, hdraws⟩
    · next hpulses => exact program_stops hbegins hmismatch hpulses

end Sys2Proof.Machine

/-! SUPPORT. A write of the byte a cell already holds (20_memory.md R58): as each programming sequence ends with a draw, a command
that draws nothing makes no pulse in any of its cycles. -/

namespace Sys2Proof.Machine

/-- From `c` to `c'` no draw is taken back, and a programming sequence that has ended has cost one (20_memory.md R51). -/
structure Chip.spends (c c' : Chip) : Prop where
  le : c.draws ≤ c'.draws
  ended : c.stage ≠ .quiet → c'.stage = .quiet → c.draws < c'.draws

section
variable {c c' c'' : Chip} {old new : Bus} {s t u : State} {i : Instr} {n : Nat}

theorem Chip.spends_refl (c : Chip) : c.spends c := ⟨le_rfl, fun hc hquiet => absurd hquiet hc⟩

theorem Chip.spends.trans (h : c.spends c') (h' : c'.spends c'') : c.spends c'' := by
  refine ⟨h.le.trans h'.le, fun hc hquiet => ?_⟩
  by_cases hc' : c'.stage = .quiet
  · exact (h.ended hc hc').trans_le h'.le
  · exact h.le.trans_lt (h'.ended hc' hquiet)

theorem Chip.spends_of_stage (hle : c.draws ≤ c'.draws) (hstage : c'.stage = c.stage) : c.spends c' :=
  ⟨hle, fun hc hquiet => absurd (hstage ▸ hquiet) hc⟩

theorem Chip.spends_toStage {g : Stage} (hg : c.stage = .quiet ∨ g ≠ .quiet) : c.spends (c.toStage g) :=
  ⟨le_rfl, fun hc hquiet => by
    obtain hg | hg := hg
    · exact absurd hg hc
    · exact absurd hquiet hg⟩

theorem observe_spends (h : c.observe old new = .ok c') : c.spends c' := by
  unfold Chip.observe at h
  split at h
  · cases h
    exact Chip.spends_of_stage le_rfl rfl
  · obtain ⟨hquiet, -, rfl⟩ | ⟨-, hadvance⟩ := change_cases h
    · exact Chip.spends_toStage (.inl hquiet)
    · unfold Chip.advance at hadvance
      split at hadvance
      · next hquiet =>
        obtain ⟨-, -, rfl⟩ := beginSequence_cases hadvance
        exact Chip.spends_toStage (.inl hquiet)
      · cases hadvance
        exact Chip.spends_toStage (.inr nofun)
      · cases hadvance
        exact Chip.spends_toStage (.inr nofun)
      · cases hadvance
        exact Chip.spends_toStage (.inr nofun)
      · cases hadvance
        exact Chip.spends_toStage (.inr nofun)
      · cases hadvance
        exact ⟨Nat.le_succ _, fun _ _ => Nat.lt_succ_self _⟩

theorem answer_draws {bus : Bus} {b : Byte} (h : c.answer bus = .ok (b, c')) : c.draws ≤ c'.draws := by
  obtain ⟨-, -, rfl, -⟩ | ⟨-, rfl, -⟩ := answer_cases h
  · exact le_rfl
  · exact Nat.le_succ _

/-- Of the lines only the samples draw. -/
theorem Ran.draws (h : Ran i s u) : s.chip.draws ≤ u.chip.draws := by
  cases h with
  | read hi hburn hp hc => exact answer_draws hc
  | readExisting hburn hp hc => exact answer_draws hc
  | verified hburn hp hc => exact answer_draws hc
  | _ => exact le_rfl

theorem exec_draws (h : exec i s = .next u) : s.chip.draws ≤ u.chip.draws := by
  obtain ⟨-, rfl⟩ | ⟨-, -, rfl⟩ | ⟨-, -, hran⟩ := exec_cases h
  · exact le_rfl
  · exact le_rfl
  · exact hran.draws

theorem blockStep_spends (h : blockStep s = .next u) : s.chip.spends u.chip := by
  obtain ⟨d, hd⟩ := blockStep_chip h
  refine Chip.spends_of_stage ?_ (by rw [hd])
  obtain ⟨-, -, rfl⟩ | ⟨hidle, b, -, hbyte⟩ | ⟨-, i, -, hexec⟩ := blockStep_cases h
  · exact le_rfl
  · rw [byteStep_chip_of_idle (s := s.acceptByte) hidle hbyte]
    exact le_rfl
  · exact exec_draws hexec

theorem step_spends (hnoReset : s.noReset) (h : step s = .next t) : s.chip.spends t.chip ∧ t.noReset := by
  obtain ⟨hreset, -⟩ | ⟨-, u, c, hblock, hc, rfl⟩ := step_cases h
  · cases (noReset_now hnoReset).symm.trans hreset
  · refine ⟨(blockStep_spends hblock).trans (observe_spends hc), noReset_tail hnoReset ?_⟩
    have hports : u.host.ports = s.host.ports := by
      rw [blockStep_host hblock]
      split <;> rfl
    rw [State.nextPorts_host_ports, moveQueue_ports, hports]

theorem runs_spends (hnoReset : s.noReset) (h : runs n s = .next t) : s.chip.spends t.chip ∧ t.noReset := by
  induction n generalizing s with
  | zero =>
    cases h
    exact ⟨Chip.spends_refl _, hnoReset⟩
  | succ n ih =>
    obtain ⟨u, hu, hrest⟩ := runs_succ_cases h
    obtain ⟨hspends, hnoReset⟩ := step_spends hnoReset hu
    obtain ⟨hspends', hnoReset⟩ := ih hnoReset hrest
    exact ⟨hspends.trans hspends', hnoReset⟩

/-- The states on the way of a run. -/
theorem runs_up_to {k : Nat} (h : runs n s = .next t) (hk : k ≤ n) : ∃ u, runs k s = .next u ∧ runs (n - k) u = .next t := by
  induction k generalizing s n with
  | zero => exact ⟨s, rfl, h⟩
  | succ k ih =>
    obtain ⟨n, rfl⟩ := Nat.exists_eq_add_of_le' (Nat.le_trans (Nat.le_add_left 1 k) hk)
    obtain ⟨v, hv, hrest⟩ := runs_succ_cases h
    obtain ⟨u, hu, hend⟩ := ih hrest (Nat.le_of_succ_le_succ hk)
    exact ⟨u, (runs_succ hv).trans hu, by rwa [Nat.succ_sub_succ]⟩

/-- Outside a programming sequence no data line is driven and the supply is not at the programming level. -/
theorem Inv.outside (hinv : Inv s) (hquiet : s.chip.stage = .quiet) : s.bus.supply ≠ .program ∧ s.bus.progSel = 0x00#8 := by
  by_cases hidle : s.eng.point = .idle
  · obtain ⟨hoff, -, hsel, -⟩ := hinv.idle hidle
    exact ⟨hoff ▸ nofun, hsel⟩
  · obtain ⟨i, -, hok⟩ := hinv.engineOk hidle
    have hout := (engineOk_iff.mp hok).outside (hok.stage.symm.trans hquiet)
    simp only [Bus.outsideSequence, Bool.and_eq_true, decide_eq_true_eq] at hout
    obtain ⟨hsel, hsupply⟩ := hout
    exact ⟨by simpa using hsupply, hsel⟩

end

/-- Settles O35: the closed form has no pulse, so nothing is drawn, and no state on the way is in a programming sequence. -/
theorem repeatedWriteIsNoOp : Obligations.RepeatedWriteIsNoOp := by
  intro s chip addr value hbegins hmatch hholds
  have hsampled : s.chip.sampled chip addr.toNat = value := (if_pos hmatch).trans hholds
  obtain ⟨n, t, ok, hn, -, hanswered, -, -, hburnt⟩ :=
    burn_answers (real := true) (burning := false) hbegins nofun nofun fun _ hsome =>
      absurd (by rw [hsampled, burnableBits_self, BitVec.zero_and]) hsome
  rw [hsampled, achievedTo_self, burnPulses_self] at hburnt
  rw [hsampled, achievedTo_self] at hanswered
  have hdraws : t.chip.draws = s.chip.draws := hburnt.draws.trans (by rw [Chip.sampleDraws, if_pos hmatch]; rfl)
  refine ⟨n, t, hn, hanswered, hburnt.kept rfl, hdraws, fun k hk => ?_⟩
  obtain ⟨u, hu, hrest⟩ := runs_up_to hn hk
  obtain ⟨hbefore, hnoReset⟩ := runs_spends hbegins.noReset hu
  obtain ⟨hafter, -⟩ := runs_spends hnoReset hrest
  refine ⟨u, hu, (runs_inv hbegins.inv hu).outside ?_⟩
  by_contra hstage
  have hspent := hafter.ended hstage hburnt.quiet
  have hle := hbefore.le
  omega

end Sys2Proof.Machine

/-! SUPPORT. The cycles of the byte streams (40_interpreter.md R95 (3), (4), R113): the queue drains, the next byte of the stream
is accepted, and the rest of a rejected line is discarded. The host may stall in any cycle of its finite list of levels, and then
offers and takes (log 3). -/

namespace Sys2Proof.Machine

/-! ### The engine's side through cycles in which the engine is idle -/

/-- `t` comes after `s` in cycles in which the engine is idle. -/
structure State.pauses (s t : State) : Prop where
  inv : Inv t
  noReset : t.noReset
  eng : t.eng = s.eng
  bus : t.bus = s.bus
  chip : ∃ held, t.chip = { s.chip with held := held }

section
variable {s t u : State}

theorem State.pauses.trans (h : s.pauses t) (h' : t.pauses u) : s.pauses u where
  inv := h'.inv
  noReset := h'.noReset
  eng := h'.eng.trans h.eng
  bus := h'.bus.trans h.bus
  chip := by
    obtain ⟨held, hchip⟩ := h.chip
    obtain ⟨held', hchip'⟩ := h'.chip
    exact ⟨held', by rw [hchip', hchip]⟩

theorem pauses_refl (hinv : Inv s) (hnoReset : s.noReset) : s.pauses s := ⟨hinv, hnoReset, rfl, rfl, _, rfl⟩

theorem pauses_of_step (hinv : Inv s) (hnoReset : s.noReset) (h : step s = .next t) (hports : t.host.ports = s.host.ports.tail)
    (heng : t.eng = s.eng) (hbus : t.bus = s.bus) (hchip : t.chip = s.chip.unchanged) : s.pauses t :=
  ⟨stepKeepsInv s t hinv h, noReset_tail hnoReset hports, heng, hbus, _, hchip⟩

/-! ### Cycles without a byte -/

/-- `t` comes after `s` in cycles that leave the interpreter alone, but for `discard`. -/
structure State.skipsTo (s t : State) : Prop where
  pauses : s.pauses t
  st : t.st = s.st
  command : t.command = s.command
  lexer : t.lex = s.lex
  cause : t.errCause = s.errCause
  output : t.output = s.output

theorem State.skipsTo.trans (h : s.skipsTo t) (h' : t.skipsTo u) : s.skipsTo u where
  pauses := h.pauses.trans h'.pauses
  st := h'.st.trans h.st
  command := h'.command.trans h.command
  lexer := h'.lexer.trans h.lexer
  cause := h'.cause.trans h.cause
  output := h'.output.trans h.output

/-- `t` comes after `s` in cycles in which no byte is accepted. -/
structure State.waitsTo (s t : State) : Prop where
  skips : s.skipsTo t
  discarding : t.discard = s.discard
  stream : t.host.rx = s.host.rx

theorem State.waitsTo.trans (h : s.waitsTo t) (h' : t.waitsTo u) : s.waitsTo u where
  skips := h.skips.trans h'.skips
  discarding := h'.discarding.trans h.discarding
  stream := h'.stream.trans h.stream

theorem waitsTo_refl (hinv : Inv s) (hnoReset : s.noReset) : s.waitsTo s :=
  ⟨⟨pauses_refl hinv hnoReset, rfl, rfl, rfl, rfl, rfl⟩, rfl, rfl⟩

theorem State.waitsTo.inv (h : s.waitsTo t) : Inv t := h.skips.pauses.inv

theorem State.waitsTo.noReset (h : s.waitsTo t) : t.noReset := h.skips.pauses.noReset

theorem State.waitsTo.idle (h : s.waitsTo t) (hidle : s.eng.point = .idle) : t.eng.point = .idle :=
  h.skips.pauses.eng ▸ hidle

/-- A cycle with the engine idle in which no byte is accepted: the queue and the input levels move. -/
theorem step_of_no_byte (hidle : s.eng.point = .idle) (hnoReset : s.noReset) (hnone : s.accepted = none) :
    step s = .next (State.nextPorts { State.moveQueue s s with chip := s.chip.unchanged }) :=
  step_eq (noReset_now hnoReset) (by simp [blockStep, State.engineIdle, hidle, hnone]) observe_same

theorem waitsTo_of_no_byte (hinv : Inv s) (hidle : s.eng.point = .idle) (hnoReset : s.noReset) (hnone : s.accepted = none) :
    s.waitsTo (State.nextPorts { State.moveQueue s s with chip := s.chip.unchanged }) where
  skips :=
    { pauses := pauses_of_step hinv hnoReset (step_of_no_byte hidle hnoReset hnone) (by simp) (by simp) (by simp) rfl
      st := by simp
      command := by simp
      lexer := by simp
      cause := by simp
      output := moveQueue_output s s }
  discarding := by simp
  stream := by simp

/-- Each cycle uses up a listed level, or takes a byte of the queue. -/
theorem moves_of_no_byte (h : s.host.ports = [] → s.txq ≠ []) :
    (State.nextPorts { State.moveQueue s s with chip := s.chip.unchanged }).host.ports.length +
      (State.nextPorts { State.moveQueue s s with chip := s.chip.unchanged }).txq.length <
    s.host.ports.length + s.txq.length := by
  obtain ⟨hqueue, -⟩ := moveQueue_txq (s := s) (u := s) (new := []) (List.append_nil _).symm
  simp only [State.nextPorts_host_ports, State.nextPorts_txq, moveQueue_ports, hqueue, List.append_nil, List.length_tail]
  cases hports : s.host.ports with
  | nil =>
    have htakes : s.portsNow.txReady = true := by rw [State.portsNow, hports]; rfl
    have hpos := List.length_pos_iff.mpr (h hports)
    rw [if_pos htakes, List.length_tail, List.length_nil]
    omega
  | cons p ports =>
    have hle : (if s.portsNow.txReady then s.txq.tail else s.txq).length ≤ s.txq.length := by
      split
      · simp
      · exact le_rfl
    rw [List.length_cons]
    omega

/-- Cycles without a byte go on until what they wait for is there. -/
theorem waits_until {P : State → Prop} (hinv : Inv s) (hidle : s.eng.point = .idle) (hnoReset : s.noReset)
    (hwait : ∀ t, s.waitsTo t → ¬ P t → t.accepted = none ∧ (t.host.ports = [] → t.txq ≠ [])) :
    ∃ n t, runs n s = .next t ∧ s.waitsTo t ∧ P t := by
  induction hleft : s.host.ports.length + s.txq.length using Nat.strong_induction_on generalizing s with | _ left ih
  by_cases hdone : P s
  · exact ⟨0, s, rfl, waitsTo_refl hinv hnoReset, hdone⟩
  · obtain ⟨hnone, hmoves⟩ := hwait s (waitsTo_refl hinv hnoReset) hdone
    have hstep := step_of_no_byte hidle hnoReset hnone
    have hwaits := waitsTo_of_no_byte hinv hidle hnoReset hnone
    obtain ⟨n, t, hn, ht, hP⟩ := ih _ (hleft ▸ moves_of_no_byte hmoves) hwaits.inv (hwaits.idle hidle) hwaits.noReset
      (fun t ht => hwait t (hwaits.trans ht)) rfl
    exact ⟨n + 1, t, (runs_succ hstep).trans hn, hwaits.trans ht, hP⟩

theorem accepted_of_busy (hbusy : s.busy = true) : s.accepted = none :=
  accepted_of_not_rxReady fun hready => by
    obtain ⟨hfree, -⟩ := rxReady_iff.mp hready
    cases hbusy.symm.trans hfree

theorem Inv.txq_ne_nil (hinv : Inv s) (hidle : s.eng.point = .idle) (hbusy : s.busy = true) : s.txq ≠ [] := by
  rintro hnil
  have hfree := hinv.busy_of_idle hidle
  rw [hbusy, hnil] at hfree
  cases hfree

/-- The queue drains (10_state.md R35). -/
theorem drains (hinv : Inv s) (hidle : s.eng.point = .idle) (hnoReset : s.noReset) :
    ∃ n t, runs n s = .next t ∧ s.waitsTo t ∧ t.busy = false :=
  waits_until hinv hidle hnoReset fun t ht hbusy => by
    rw [Bool.not_eq_false] at hbusy
    exact ⟨accepted_of_busy hbusy, fun _ => ht.inv.txq_ne_nil (ht.idle hidle) hbusy⟩

/-- The next byte of the stream is accepted (10_state.md R41). -/
theorem accepts_next {c : Byte} {cs : List Byte} (hinv : Inv s) (hidle : s.eng.point = .idle) (hnoReset : s.noReset)
    (hstream : s.host.rx = c :: cs) : ∃ n t, runs n s = .next t ∧ s.waitsTo t ∧ t.accepted = some c := by
  refine waits_until hinv hidle hnoReset fun t ht hnot => ?_
  have hidle' : t.eng.point = .idle := ht.idle hidle
  have hoffered : t.portsNow.rxValid = true → t.rxOffered = some c := fun hvalid =>
    rxOffered_eq_some_iff.mpr ⟨hvalid, by rw [ht.stream, hstream]; rfl⟩
  by_cases hready : t.rxReady = true
  · have hstalls : t.portsNow.rxValid = false := by
      rw [← Bool.not_eq_true]
      exact fun hvalid => hnot (accepted_eq_some_iff.mpr ⟨hready, hoffered hvalid⟩)
    refine ⟨by simp [State.accepted, State.rxOffered, hstalls], fun hports => ?_⟩
    rw [State.portsNow, hports] at hstalls
    cases hstalls
  · refine ⟨accepted_of_not_rxReady hready, fun _ => ht.inv.txq_ne_nil hidle' ?_⟩
    by_contra hbusy
    rw [Bool.not_eq_true] at hbusy
    have hempty := ht.inv.busy_of_idle hidle'
    rw [hbusy] at hempty
    exact hready (rxReady_iff.mpr ⟨hbusy, hidle', by simpa using hempty, noReset_now ht.noReset⟩)

/-! ### The rest of a rejected line -/

/-- A byte discarded changes nothing else (R113). -/
theorem discards_byte {c : Byte} {cs : List Byte} (hinv : Inv s) (hidle : s.eng.point = .idle) (hnoReset : s.noReset)
    (hdiscard : s.discard = true) (hstream : s.host.rx = c :: cs) :
    ∃ n t, runs n s = .next t ∧ s.skipsTo t ∧ t.discard = decide (c ≠ asciiLF) ∧ t.host.rx = cs := by
  obtain ⟨n, u, hn, hwaits, haccepted⟩ := accepts_next hinv hidle hnoReset hstream
  have hstep := discardToLineFeed u c (hwaits.discarding.trans hdiscard) haccepted
  refine ⟨n + 1, _, runs_snoc hn hstep, hwaits.skips.trans ?_, rfl, ?_⟩
  · exact ⟨pauses_of_step hwaits.inv hwaits.noReset hstep rfl rfl rfl rfl, rfl, rfl, rfl, rfl, rfl⟩
  · exact (congrArg List.tail (hwaits.stream.trans hstream)).trans rfl

/-- The rest of the line is discarded with its LF. -/
theorem discards_line {line rest : List Byte} (hinv : Inv s) (hidle : s.eng.point = .idle) (hnoReset : s.noReset)
    (hdiscard : s.discard = true) (hline : asciiLF ∉ line) (hstream : s.host.rx = line ++ asciiLF :: rest) :
    ∃ n t, runs n s = .next t ∧ s.skipsTo t ∧ t.discard = false ∧ t.host.rx = rest := by
  induction line generalizing s with
  | nil => exact discards_byte hinv hidle hnoReset hdiscard hstream
  | cons c line ih =>
    obtain ⟨hc, hline⟩ := List.ne_and_not_mem_of_not_mem_cons hline
    obtain ⟨n, u, hn, hskips, hkeeps, hrest⟩ := discards_byte hinv hidle hnoReset hdiscard hstream
    obtain ⟨m, t, hm, hskips', hends⟩ := ih hskips.pauses.inv (hskips.pauses.eng ▸ hidle) hskips.pauses.noReset
      (hkeeps.trans (decide_eq_true hc.symm)) hline hrest
    exact ⟨n + m, t, (runs_add hn).trans hm, hskips.trans hskips', hends⟩

end

end Sys2Proof.Machine

/-! SUPPORT. The token handlers, one token after another, against the grammar (30_encoding.md R72 to R76, R88 to R90;
40_interpreter.md R103 to R110): what the interpreter makes of the tokens of a line is what the decoder makes of them. -/

namespace Sys2Proof.Machine

/-- What the interpreter knows of a line between two of its tokens. -/
structure LineParse where
  st : ProtocolState
  command : Command

def State.lineParse (s : State) : LineParse := ⟨s.st, s.command⟩

/-- The next token, by its `TOK` event. -/
def LineParse.read (p : LineParse) (t : Token) : Except Cause LineParse :=
  (tokenEvent { State.reset with st := p.st, command := p.command, lex := lexToken t }).map State.lineParse

/-- The tokens of a line one after another, up to the first error. -/
def LineParse.reads (p : LineParse) (ts : List Token) : Except Cause LineParse := ts.foldlM LineParse.read p

/-- An LF starts the command `i` (R84, R103). -/
def LineParse.starts (p : LineParse) (i : Instr) : Prop :=
  p.command.live = some i ∧ (p.st = .executing ∨ i = .version ∧ p.st ≠ .ready)

/-- An LF finds no row (R105). -/
def LineParse.incomplete (p : LineParse) : Prop := p.st ≠ .ready ∧ lookupRow p.command.cmd p.st .eol = none

section
variable {p q : LineParse} {t : Token} {ts fields : List Token} {i : Instr} {cause : Cause} {r : Command} {st : ProtocolState}

theorem tokenEvent_lineParse {s : State} (hlex : s.lex = lexToken t) :
    (tokenEvent s).map State.lineParse = s.lineParse.read t := by
  simp only [LineParse.read, tokenEvent, State.lineParse, hlex]
  cases lookupRow s.command.cmd s.st .tok with
  | none => rfl
  | some row =>
    dsimp only
    cases row.handler.onToken with
    | none => rfl
    | some handler =>
      dsimp only
      cases handler (lexToken t) s.command <;> rfl

theorem read_of_row {row : Row} {handler : Lexer → Command → Except Cause Command}
    (hrow : lookupRow p.command.cmd p.st .tok = some row) (hhandler : row.handler.onToken = some handler) (t : Token) :
    p.read t = (handler (lexToken t) p.command).map fun r => ⟨row.hint, r⟩ := by
  rw [LineParse.read, tokenEvent_of_row hrow hhandler]
  show Except.map _ (Except.map _ (handler (lexToken t) p.command)) = _
  cases handler (lexToken t) p.command <;> rfl

theorem read_of_none (hrow : lookupRow p.command.cmd p.st .tok = none) (t : Token) : p.read t = .error .noRule := by
  rw [LineParse.read, tokenEvent_of_none hrow]
  rfl

theorem reads_cons_of_ok (h : p.read t = .ok q) (ts : List Token) : p.reads (t :: ts) = q.reads ts := by
  rw [LineParse.reads, List.foldlM_cons, h]
  rfl

theorem reads_cons_of_error (h : p.read t = .error cause) (ts : List Token) : p.reads (t :: ts) = .error cause := by
  rw [LineParse.reads, List.foldlM_cons, h]
  rfl

/-- What the interpreter makes of the rest of a line, its LF included: a command, or an error with its cause. -/
def LineParse.means (p : LineParse) (ts : List Token) (result : Except Cause Instr) : Prop :=
  match result with
  | .ok i => ∃ q, p.reads ts = .ok q ∧ q.starts i
  | .error cause => p.reads ts = .error cause ∨ cause = .noRule ∧ ∃ q, p.reads ts = .ok q ∧ q.incomplete

theorem means_cons_of_ok {result : Except Cause Instr} (h : p.read t = .ok q) (hmeans : q.means ts result) :
    p.means (t :: ts) result := by
  cases result with
  | ok i => simpa only [LineParse.means, reads_cons_of_ok h] using hmeans
  | error cause => simpa only [LineParse.means, reads_cons_of_ok h] using hmeans

theorem means_cons_of_error (h : p.read t = .error cause) : p.means (t :: ts) (.error cause) :=
  .inl (reads_cons_of_error h ts)

theorem means_nil_of_incomplete (h : p.incomplete) : p.means [] (.error .noRule) := .inr ⟨rfl, p, rfl, h⟩

theorem incomplete_of_not_executing (hcmd : r.cmd ≠ cmdV) (hst : st ≠ .executing) (hready : st ≠ .ready) :
    LineParse.incomplete ⟨st, r⟩ := ⟨hready, lookupRow_eol_of_not_executing hcmd hst⟩

/-- At the end of the fields the line runs its command, and any further token is an error (R90). -/
theorem means_endOfLine (hstarts : p.starts i) (hnone : lookupRow p.command.cmd p.st .tok = none) (ts : List Token) :
    p.means ts (endOfLine i ts) := by
  cases ts with
  | nil => exact ⟨p, rfl, hstarts⟩
  | cons t ts => exact means_cons_of_error (read_of_none hnone t)

theorem takeField_eq_error {α : Type} {field : Token → Except Cause α} (h : takeField field fields = .error cause) :
    (fields = [] ∧ cause = .noRule) ∨ ∃ t ts, fields = t :: ts ∧ field t = .error cause := by
  cases fields with
  | nil =>
    cases h
    exact .inl ⟨rfl, rfl⟩
  | cons t ts =>
    refine .inr ⟨t, ts, rfl, ?_⟩
    cases hfield : field t with
    | error c => exact congrArg _ (Except.error.inj ((takeField_of_error hfield ts).symm.trans h))
    | ok v => cases (takeField_of_ok hfield ts).symm.trans h

/-- A row that reads a field of the grammar: where the field is missing or bad both give its cause, else both go on behind it. -/
theorem means_field {α : Type} {row : Row} {handler : Lexer → Command → Except Cause Command} {field : Token → Except Cause α}
    {set : α → Command} {result : Except Cause Instr} (hne : ∀ t ∈ fields, t ≠ [])
    (hrow : lookupRow r.cmd st .tok = some row) (hhandler : row.handler.onToken = some handler)
    (hfield : ∀ t, t ≠ [] → handler (lexToken t) r = (field t).map set) (hincomplete : LineParse.incomplete ⟨st, r⟩)
    (hfails : ∀ cause, takeField field fields = .error cause → result = .error cause)
    (hgoes : ∀ v rest, (∀ t ∈ rest, t ≠ []) → takeField field fields = .ok (v, rest) →
      LineParse.means ⟨row.hint, set v⟩ rest result) : LineParse.means ⟨st, r⟩ fields result := by
  have hread := fun t ht => (read_of_row (p := ⟨st, r⟩) hrow hhandler t).trans (congrArg _ (hfield t ht))
  cases htake : takeField field fields with
  | error cause =>
    rw [hfails cause htake]
    obtain ⟨rfl, rfl⟩ | ⟨t, ts, rfl, hbad⟩ := takeField_eq_error htake
    · exact means_nil_of_incomplete hincomplete
    · refine means_cons_of_error ((hread t (hne t (by simp))).trans ?_)
      rw [hbad]
      rfl
  | ok taken =>
    obtain ⟨v, rest⟩ := taken
    obtain ⟨t, rfl, hgood⟩ := takeField_eq_ok htake
    refine means_cons_of_ok (q := ⟨row.hint, set v⟩) ((hread t (hne t (by simp))).trans ?_)
      (hgoes v rest (fun u hu => hne u (List.mem_cons_of_mem t hu)) htake)
    rw [hgood]
    rfl

theorem lookupRow_executing_tok (cmd : Byte) : lookupRow cmd .executing .tok = none := lookupRow_eq_none (by simp [ruleTable])

theorem means_executing {make : Instr} (hlive : r.live = some make) (ts : List Token) :
    LineParse.means ⟨.executing, r⟩ ts (endOfLine make ts) :=
  means_endOfLine ⟨hlive, .inl rfl⟩ (lookupRow_executing_tok _) ts

/-- `R` and `K` after their command byte. -/
theorem means_parseScan {make : Profile → Instr} (hne : ∀ t ∈ fields, t ≠ []) (hcmd : r.cmd ∈ [cmdR, cmdK])
    (hmake : ∀ chip, ({ r with chip := chip } : Command).live = some (make chip)) :
    LineParse.means ⟨.waitChip, r⟩ fields (parseScan make fields) := by
  refine means_field hne (lookupRow_waitChip_scan hcmd) rfl (fun t ht => handleChip_lexToken ht r)
    (incomplete_of_not_executing ?_ nofun nofun) (fun c h => ?_) fun chip rest hrest h => ?_
  · rintro hV
    simp [hV] at hcmd
  · simp only [parseScan, h]
  · simp only [parseScan, h]
    exact means_executing (hmake chip) rest

/-- `r` after its command byte. -/
theorem means_parseRead (hne : ∀ t ∈ fields, t ≠ []) (hcmd : r.cmd = cmdr) :
    LineParse.means ⟨.waitChip, r⟩ fields (parseRead fields) := by
  have hnotV : cmdr ≠ cmdV := by decide
  refine means_field hne (lookupRow_waitChip_address (by simp [hcmd])) rfl (fun t ht => handleChip_lexToken ht r)
    (incomplete_of_not_executing (hcmd ▸ hnotV) nofun nofun) (fun c h => ?_) fun chip rest hrest h => ?_
  · simp only [parseRead, h]
  simp only [parseRead, h]
  refine means_field hrest (r := { r with chip := chip })
    (row := ⟨some cmdr, some .waitAddress, .tok, .hAddr, .executing⟩) (hcmd ▸ lookupRow_waitAddress_read) rfl
    (fun t ht => handleAddr_lexToken ht _) (incomplete_of_not_executing (hcmd ▸ hnotV) nofun nofun) (fun c h => ?_)
    fun addr rest hrest h => ?_
  · simp only [h]
  · simp only [h]
    refine means_executing ?_ rest
    simp only [Command.live, hcmd]
    rfl

/-- `w` and `s` after their command byte. -/
theorem means_parseBurn {make : Profile → CellAddr → Byte → Instr} (hne : ∀ t ∈ fields, t ≠ []) (hcmd : r.cmd ∈ [cmdw, cmds])
    (hmake : ∀ chip addr value, ({ r with chip := chip, addr := addr, value := value } : Command).live =
      some (make chip addr value)) : LineParse.means ⟨.waitChip, r⟩ fields (parseBurn make fields) := by
  have hnotV : r.cmd ≠ cmdV := by
    rintro hV
    simp [hV] at hcmd
  refine means_field hne (lookupRow_waitChip_address (List.mem_cons_of_mem _ hcmd)) rfl (fun t ht => handleChip_lexToken ht r)
    (incomplete_of_not_executing hnotV nofun nofun) (fun c h => ?_) fun chip rest hrest h => ?_
  · simp only [parseBurn, h]
  simp only [parseBurn, h]
  refine means_field hrest (r := { r with chip := chip }) (lookupRow_waitAddress_burn hcmd) rfl
    (fun t ht => handleAddr_lexToken ht _) (incomplete_of_not_executing hnotV nofun nofun) (fun c h => ?_)
    fun addr rest hrest h => ?_
  · simp only [h]
  simp only [h]
  refine means_field hrest (r := { r with chip := chip, addr := addr }) (lookupRow_waitValue hcmd) rfl
    (fun t ht => handleValue_lexToken ht _) (incomplete_of_not_executing hnotV nofun nofun) (fun c h => ?_)
    fun value rest hrest h => ?_
  · simp only [h]
  · simp only [h]
    exact means_executing (hmake chip addr value) rest

theorem lookupRow_waitChip_none {cmd : Byte} (h : cmd ∉ [cmdR, cmdK, cmdr, cmdw, cmds]) : lookupRow cmd .waitChip .tok = none :=
  lookupRow_eq_none (by simpa [ruleTable, and_assoc] using h)

/-- After the command byte the fields mean what the decoder reads in them (R88, R89). -/
theorem means_parseFields (c : Byte) (hne : ∀ t ∈ fields, t ≠ []) :
    LineParse.means ⟨.waitChip, { emptyCommand with cmd := c }⟩ fields (parseFields c fields) := by
  unfold parseFields
  split_ifs with hV hR hK hr hw hs
  · subst hV
    exact means_endOfLine ⟨rfl, .inr ⟨rfl, show ProtocolState.waitChip ≠ .ready from nofun⟩⟩
      (lookupRow_waitChip_none (by decide)) fields
  · subst hR
    exact means_parseScan hne (by decide) fun _ => rfl
  · subst hK
    exact means_parseScan hne (by decide) fun _ => rfl
  · exact means_parseRead hne hr
  · subst hw
    exact means_parseBurn hne (by decide) fun _ _ _ => rfl
  · subst hs
    exact means_parseBurn hne (by decide) fun _ _ _ => rfl
  · cases fields with
    | nil => exact means_nil_of_incomplete (incomplete_of_not_executing hV nofun nofun)
    | cons t ts =>
      have hunknown : c ∉ [cmdR, cmdK, cmdr, cmdw, cmds] := by
        simp only [List.mem_cons, List.not_mem_nil, or_false, not_or]
        exact ⟨hR, hK, hr, hw, hs⟩
      exact means_cons_of_error (read_of_none (lookupRow_waitChip_none hunknown) t)

/-- From the start of a line the tokens mean what the decoder reads in them. -/
theorem means_parseTokens {cmd : Token} (hcmd : cmd ≠ []) (hne : ∀ t ∈ fields, t ≠ []) :
    LineParse.means ⟨.ready, emptyCommand⟩ (cmd :: fields) (parseTokens cmd fields) := by
  have hread := read_of_row (p := ⟨.ready, emptyCommand⟩) (lookupRow_ready _) rfl cmd
  match cmd, hcmd with
  | [c], _ => exact means_cons_of_ok hread (means_parseFields c hne)
  | c :: c' :: cs, _ =>
    rw [handleCmd_of_long] at hread
    exact means_cons_of_error hread

end

theorem tokensFrom_ne_nil : ∀ {line : List Byte} {cur : Token}, ∀ t ∈ tokensFrom cur line, t ≠ []
  | [], [], t, ht => by cases ht
  | [], c :: cur, t, ht => by
    rw [tokensFrom_nil (List.cons_ne_nil c cur), List.mem_singleton] at ht
    exact ht ▸ List.cons_ne_nil c cur
  | d :: line, cur, t, ht => by
    cases hd : isDelim d with
    | false =>
      rw [tokensFrom_cons hd] at ht
      exact tokensFrom_ne_nil t ht
    | true =>
      by_cases hcur : cur = []
      · subst hcur
        rw [tokensFrom_delim_nil hd] at ht
        exact tokensFrom_ne_nil t ht
      · rw [tokensFrom_delim hd hcur] at ht
        obtain rfl | ht := List.mem_cons.mp ht
        · exact hcur
        · exact tokensFrom_ne_nil t ht

/-- The tokens of a line mean what the decoder reads in them. -/
theorem means_tokens {line : List Byte} {cmd : Token} {fields : List Token} (h : tokens line = cmd :: fields) :
    LineParse.means ⟨.ready, emptyCommand⟩ (tokens line) (parseTokens cmd fields) := by
  have hne : ∀ t ∈ cmd :: fields, t ≠ [] := h ▸ tokensFrom_ne_nil
  obtain ⟨hcmd, hfields⟩ := List.forall_mem_cons.mp hne
  exact h ▸ means_parseTokens hcmd hfields

end Sys2Proof.Machine

/-! SUPPORT. A line read byte by byte from the stream (40_interpreter.md R96 to R106, R113): up to its LF, or through the error
transition to the end of the line. -/

namespace Sys2Proof.Machine

/-! ### Inside a line -/

/-- The block reads a line: the bytes `cur` of a token have been read, `p` is known from the tokens before it, and the stream
offers `stream`. -/
structure State.reading (s : State) (cur : Token) (p : LineParse) (stream : List Byte) : Prop where
  inv : Inv s
  noReset : s.noReset
  idle : s.eng.point = .idle
  keeps : s.discard = false
  lexer : s.lex = lexToken cur
  parse : s.lineParse = p
  stream : s.host.rx = stream

/-- `t` comes after `s` in cycles that read a line. -/
structure State.readsTo (s t : State) : Prop where
  pauses : s.pauses t
  cause : t.errCause = s.errCause
  output : t.output = s.output

/-- In `t` the line that `s` reads has been rejected with `cause`, the response has gone out and the next line is awaited
(60_exceptions.md R149, R151). -/
structure State.rejected (s : State) (cause : Cause) (rest : List Byte) (t : State) : Prop where
  pauses : s.pauses t
  ready : t.st = .ready
  outside : t.lex.inTok = false
  keeps : t.discard = false
  free : t.busy = false
  cause : t.errCause = cause
  stream : t.host.rx = rest
  output : t.output = s.output ++ errorResponse

section
variable {s t u : State} {cur : Token} {p q : LineParse} {c : Byte} {cs line rest : List Byte} {cause : Cause}

theorem State.readsTo.trans (h : s.readsTo t) (h' : t.readsTo u) : s.readsTo u :=
  ⟨h.pauses.trans h'.pauses, h'.cause.trans h.cause, h'.output.trans h.output⟩

theorem State.readsTo.rejected (h : s.readsTo t) (h' : t.rejected cause rest u) : s.rejected cause rest u :=
  { h' with pauses := h.pauses.trans h'.pauses, output := by rw [h'.output, h.output] }

theorem readsTo_refl (hinv : Inv s) (hnoReset : s.noReset) : s.readsTo s := ⟨pauses_refl hinv hnoReset, rfl, rfl⟩

/-- The next byte is accepted. -/
theorem State.reading.offers (h : s.reading cur p (c :: cs)) :
    ∃ n t, runs n s = .next t ∧ s.readsTo t ∧ t.reading cur p (c :: cs) ∧ t.accepted = some c := by
  obtain ⟨n, t, hn, hwaits, haccepted⟩ := accepts_next h.inv h.idle h.noReset h.stream
  refine ⟨n, t, hn, ⟨hwaits.skips.pauses, hwaits.skips.cause, hwaits.skips.output⟩, ?_, haccepted⟩
  exact
    { inv := hwaits.inv, noReset := hwaits.noReset, idle := hwaits.idle h.idle
      keeps := hwaits.discarding.trans h.keeps, lexer := hwaits.skips.lexer.trans h.lexer
      parse := by rw [State.lineParse, hwaits.skips.st, hwaits.skips.command]; exact h.parse
      stream := hwaits.stream.trans h.stream }

/-- A byte of a token (R98). -/
theorem State.reading.tokenByte (h : s.reading cur p (c :: cs)) (haccepted : s.accepted = some c) (hdelim : isDelim c = false)
    (hlf : c ≠ asciiLF) : ∃ t, step s = .next t ∧ s.readsTo t ∧ t.reading (cur ++ [c]) p cs := by
  have hbyte := byteStep_token (s := s.acceptByte) (c := c) h.keeps
    (by rw [Ne, classOf_eq_delim_iff, hdelim]; exact nofun) (by rwa [Ne, classOf_eq_lf_iff])
  have hstep := step_of_accepted haccepted hbyte rfl
  have hpauses := pauses_of_step h.inv h.noReset hstep rfl rfl rfl rfl
  refine ⟨_, hstep, ⟨hpauses, rfl, rfl⟩, ?_⟩
  exact
    { inv := hpauses.inv, noReset := hpauses.noReset, idle := h.idle, keeps := h.keeps
      lexer := by rw [lexToken_append, ← h.lexer]; rfl
      parse := h.parse, stream := congrArg List.tail h.stream }

theorem lexToken_inTok {t : Token} (ht : t ≠ []) : (lexToken t).inTok = true := by
  rw [← List.dropLast_append_getLast ht, lexToken_append]
  exact append_inTok _ _

theorem reads_singleton (p : LineParse) (t : Token) : p.reads [t] = p.read t := by
  cases hread : p.read t with
  | ok q => exact reads_cons_of_ok hread []
  | error cause => exact reads_cons_of_error hread []

/-- What the token begun gives when it ends. -/
theorem State.reading.atLineEnd (h : s.reading cur p cs) : s.atLineEnd.map State.lineParse = p.reads (tokensFrom cur []) := by
  unfold State.atLineEnd
  by_cases hcur : cur = []
  · subst hcur
    rw [if_neg (by rw [h.lexer]; exact nofun), ← h.parse]
    rfl
  · rw [if_pos (by rw [h.lexer]; exact lexToken_inTok hcur), tokenEvent_lineParse h.lexer, h.parse, tokensFrom_nil hcur,
      reads_singleton]

theorem map_eq_ok {α β : Type} {x : Except Cause α} {f : α → β} {b : β} (h : x.map f = .ok b) : ∃ a, x = .ok a ∧ f a = b := by
  cases x with
  | ok a => exact ⟨a, rfl, Except.ok.inj h⟩
  | error c => cases h

theorem map_eq_error {α β : Type} {x : Except Cause α} {f : α → β} (h : x.map f = .error cause) : x = .error cause := by
  cases x with
  | ok a => cases h
  | error c => exact congrArg _ (Except.error.inj h)

/-- A delimiter ends the token begun, if there is one. -/
theorem State.reading.delimByte (h : s.reading cur p (c :: cs)) (haccepted : s.accepted = some c) (hdelim : isDelim c = true)
    (hreads : p.reads (tokensFrom cur []) = .ok q) : ∃ t, step s = .next t ∧ s.readsTo t ∧ t.reading [] q cs := by
  obtain ⟨u, hline, hparse⟩ := map_eq_ok (h.atLineEnd.trans hreads)
  have hbyte := (byteStep_delim (s := s.acceptByte) (classOf_eq_delim_iff.mpr hdelim) h.keeps h.inv.protocol).trans
    (delimByte_of_atLineEnd (atLineEnd_acceptByte hline))
  have hframe := atLineEnd_frame h.inv hline
  have hstep := step_of_accepted haccepted hbyte (by rw [hframe]; rfl)
  have hpauses := pauses_of_step h.inv h.noReset hstep (by rw [hframe]; rfl) (by rw [hframe]; rfl) (by rw [hframe]; rfl)
    (by rw [hframe]; rfl)
  refine ⟨_, hstep, ⟨hpauses, by rw [hframe]; rfl, by rw [hframe]; rfl⟩, ?_⟩
  exact
    { inv := hpauses.inv, noReset := hpauses.noReset, idle := hpauses.eng ▸ h.idle, keeps := by rw [hframe]; exact h.keeps
      lexer := by rw [hframe]; rfl
      parse := hparse, stream := by rw [hframe]; exact congrArg List.tail h.stream }

/-- The response of an error goes out, the rest of the line having been discarded. -/
theorem rejected_of_drained (hinv : Inv s) (hidle : s.eng.point = .idle) (hnoReset : s.noReset) (hready : s.st = .ready)
    (hlex : s.lex = clearedLexer) (hkeeps : s.discard = false) (hcause : s.errCause = cause) (hstream : s.host.rx = rest)
    (hpauses : t.pauses s) (houtput : s.output = t.output ++ errorResponse) :
    ∃ n u, runs n s = .next u ∧ t.rejected cause rest u := by
  obtain ⟨n, u, hn, hwaits, hfree⟩ := drains hinv hidle hnoReset
  refine ⟨n, u, hn, ?_⟩
  exact
    { pauses := hpauses.trans hwaits.skips.pauses, ready := hwaits.skips.st.trans hready
      outside := by rw [hwaits.skips.lexer, hlex]; rfl
      keeps := hwaits.discarding.trans hkeeps, free := hfree, cause := hwaits.skips.cause.trans hcause
      stream := hwaits.stream.trans hstream, output := hwaits.skips.output.trans houtput }

/-- A byte that raises an error: the response goes out and the rest of the line is discarded (R113, 60_exceptions.md R149). -/
theorem State.reading.rejects (h : s.reading cur p (c :: cs)) (haccepted : s.accepted = some c)
    (hcause : s.byteCause c = some cause) (hline : asciiLF ∉ line) (hcs : c :: cs = line ++ asciiLF :: rest) :
    ∃ n t, runs n s = .next t ∧ s.rejected cause rest t := by
  obtain ⟨term, hbyte, hterm⟩ := byteStep_of_byteCause (s := s.acceptByte) h.inv.protocol h.keeps
    ((byteCause_acceptByte s c).trans hcause)
  have hstep := step_of_accepted haccepted hbyte rfl
  have hpauses := pauses_of_step h.inv h.noReset hstep rfl rfl rfl rfl
  have htail : s.host.rx.tail = cs := congrArg List.tail h.stream
  have houtput : s.host.taken ++ (s.txq ++ errorResponse) = s.output ++ errorResponse := (List.append_assoc _ _ _).symm
  cases line with
  | nil =>
    obtain ⟨rfl, rfl⟩ := List.cons_eq_cons.mp hcs
    obtain ⟨n, t, hn, ht⟩ := rejected_of_drained hpauses.inv h.idle hpauses.noReset rfl rfl
      (decide_eq_false fun hdelim => hterm.mp hdelim rfl) rfl htail hpauses houtput
    exact ⟨n + 1, t, (runs_succ hstep).trans hn, ht⟩
  | cons b line =>
    obtain ⟨rfl, rfl⟩ := List.cons_eq_cons.mp hcs
    obtain ⟨hc, hline⟩ := List.ne_and_not_mem_of_not_mem_cons hline
    obtain ⟨m, v, hm, hskips, hkeeps, hrest⟩ := discards_line hpauses.inv h.idle hpauses.noReset
      (decide_eq_true (hterm.mpr hc.symm)) hline htail
    obtain ⟨n, t, hn, ht⟩ := rejected_of_drained hskips.pauses.inv (hskips.pauses.eng ▸ h.idle) hskips.pauses.noReset
      hskips.st hskips.lexer hkeeps hskips.cause hrest (hpauses.trans hskips.pauses) (hskips.output.trans houtput)
    exact ⟨m + n + 1, t, (runs_succ hstep).trans ((runs_add hm).trans hn), ht⟩

theorem byteCause_of_error (hend : isDelim c = true ∨ c = asciiLF) (h : s.atLineEnd = .error cause) :
    s.byteCause c = some cause := by
  unfold State.byteCause
  rw [if_pos (hend.imp classOf_eq_delim_iff.mpr classOf_eq_lf_iff.mpr), h]

theorem tokensFrom_delim_eq (hdelim : isDelim c = true) (cur : Token) (line : List Byte) :
    tokensFrom cur (c :: line) = tokensFrom cur [] ++ tokensFrom [] line := by
  by_cases hcur : cur = []
  · subst hcur
    exact tokensFrom_delim_nil hdelim line
  · rw [tokensFrom_delim hdelim hcur, tokensFrom_nil hcur]
    rfl

theorem reads_append_of_ok {ts : List Token} (h : p.reads ts = .ok q) (ts' : List Token) : p.reads (ts ++ ts') = q.reads ts' := by
  rw [LineParse.reads, List.foldlM_append, ← LineParse.reads, h]
  rfl

theorem reads_append_of_error {ts : List Token} (h : p.reads ts = .error cause) (ts' : List Token) :
    p.reads (ts ++ ts') = .error cause := by
  rw [LineParse.reads, List.foldlM_append, ← LineParse.reads, h]
  rfl

/-- The LF of the line is accepted with `p` known of the line. -/
structure State.endsLine (s : State) (p : LineParse) (rest : List Byte) (t : State) : Prop where
  reads : s.readsTo t
  inLine : ∃ cur q, t.reading cur q (asciiLF :: rest)
  accepts : t.accepted = some asciiLF
  parsed : ∃ u, t.atLineEnd = .ok u ∧ u.lineParse = p

/-- What becomes of a line that the block reads: its LF is accepted, or it is rejected. -/
def State.lineComesTo (s : State) (result : Except Cause LineParse) (rest : List Byte) : Prop :=
  ∃ n t, runs n s = .next t ∧
    match result with
    | .ok p => s.endsLine p rest t
    | .error cause => s.rejected cause rest t

theorem State.lineComesTo.after {n : Nat} {result : Except Cause LineParse} (h : t.lineComesTo result rest) (hn : runs n s = .next t)
    (hreads : s.readsTo t) : s.lineComesTo result rest := by
  obtain ⟨m, u, hm, hu⟩ := h
  refine ⟨n + m, u, (runs_add hn).trans hm, ?_⟩
  cases result with
  | ok p => exact { hu with reads := hreads.trans hu.reads }
  | error cause => exact hreads.rejected hu

/-- The line is read byte by byte: its tokens come one after another to their handlers (R96, R103). -/
theorem State.reading.readsLine (h : s.reading cur p (line ++ asciiLF :: rest)) (hline : asciiLF ∉ line) :
    s.lineComesTo (p.reads (tokensFrom cur line)) rest := by
  induction line generalizing s cur p with
  | nil =>
    obtain ⟨n, t, hn, hreads, ht, haccepted⟩ := h.offers
    refine State.lineComesTo.after ?_ hn hreads
    cases hresult : p.reads (tokensFrom cur []) with
    | ok q =>
      exact ⟨0, t, rfl, readsTo_refl ht.inv ht.noReset, ⟨cur, p, ht⟩, haccepted, map_eq_ok (ht.atLineEnd.trans hresult)⟩
    | error cause =>
      have hcause := byteCause_of_error (.inr rfl) (map_eq_error (ht.atLineEnd.trans hresult))
      exact ht.rejects haccepted hcause List.not_mem_nil rfl
  | cons c line ih =>
    obtain ⟨hc, hrest⟩ := List.ne_and_not_mem_of_not_mem_cons hline
    obtain ⟨n, t, hn, hreads, ht, haccepted⟩ := h.offers
    refine State.lineComesTo.after ?_ hn hreads
    cases hdelim : isDelim c with
    | false =>
      obtain ⟨u, hstep, hreads, hu⟩ := ht.tokenByte haccepted hdelim hc.symm
      rw [tokensFrom_cons hdelim]
      exact (ih hu hrest).after (runs_snoc (runs_zero t) hstep) hreads
    | true =>
      rw [tokensFrom_delim_eq hdelim]
      cases hresult : p.reads (tokensFrom cur []) with
      | ok q =>
        obtain ⟨u, hstep, hreads, hu⟩ := ht.delimByte haccepted hdelim hresult
        rw [reads_append_of_ok hresult]
        exact (ih hu hrest).after (runs_snoc (runs_zero t) hstep) hreads
      | error cause =>
        rw [reads_append_of_error hresult]
        have hcause := byteCause_of_error (.inl hdelim) (map_eq_error (ht.atLineEnd.trans hresult))
        exact ht.rejects haccepted hcause hline rfl

end

end Sys2Proof.Machine

/-! SUPPORT. Whole lines: a blank one is skipped, a malformed one is rejected, a request is answered (30_encoding.md R72, R83,
40_interpreter.md R106, R113). -/

namespace Sys2Proof.Machine

section
variable {s t : State} {p : LineParse} {i : Instr} {cause : Cause} {rest : List Byte}

/-- The line that an awaiting block reads next, with what becomes of its tokens. -/
theorem State.awaitsLine.readsLine (h : s.awaitsLine) {line : List Byte} (hline : asciiLF ∉ line)
    (hstream : s.host.rx = line ++ [asciiLF] ++ rest) :
    s.lineComesTo (LineParse.reads ⟨.ready, emptyCommand⟩ (tokens line)) rest := by
  have hidle : s.eng.point = .idle := by
    by_contra hrun
    exact absurd (h.inv.busy_of_running hrun) (by simp [h.free])
  refine State.reading.readsLine (cur := []) ?_ hline
  exact
    { inv := h.inv, noReset := h.noReset, idle := hidle, keeps := h.keeps, lexer := h.inv.lexer h.outside
      parse := by rw [State.lineParse, h.ready, h.inv.ready h.ready]
      stream := by rw [hstream, List.append_assoc]; rfl }

/-- An awaiting block whose stream the decoder finds terminated. -/
theorem State.awaitsLine.readsTokens (h : s.awaitsLine) (hterminated : decode s.host.rx ≠ .unterminated) :
    ∃ line rest, decode s.host.rx = decodeTokens (tokens line) rest ∧
      s.lineComesTo (LineParse.reads ⟨.ready, emptyCommand⟩ (tokens line)) rest := by
  obtain ⟨-, hnone⟩ | ⟨line, rest, hline, hstream, hdecode⟩ := decode_cases s.host.rx
  · exact absurd hnone hterminated
  · exact ⟨line, rest, hdecode, h.readsLine hline hstream⟩

/-- The LF of a line finds the block free. -/
theorem State.endsLine.free (h : s.endsLine p rest t) : t.busy = false := by
  obtain ⟨hready, -⟩ := accepted_eq_some_iff.mp h.accepts
  obtain ⟨hfree, -⟩ := rxReady_iff.mp hready
  exact hfree

/-! ### A blank line -/

/-- The LF of a line that is still in `Ready` is consumed (R106). -/
theorem State.endsLine.skipped (h : s.endsLine p rest t) (hready : p.st = .ready) :
    ∃ u, step t = .next u ∧ s.readsTo u ∧ u.awaitsLine ∧ u.host.rx = rest := by
  obtain ⟨cur, q, hreading⟩ := h.inLine
  obtain ⟨v, hline, hparse⟩ := h.parsed
  have hst : v.st = .ready := (congrArg LineParse.st hparse).trans hready
  have hbyte : byteStep asciiLF t.acceptByte = .next v.acceptByte := by
    rw [byteStep_lf (s := t.acceptByte) hreading.keeps hreading.inv.protocol, lfByte_of_atLineEnd (atLineEnd_acceptByte hline)]
    exact if_pos hst
  have hframe := atLineEnd_frame hreading.inv hline
  have hstep := step_of_accepted h.accepts hbyte (by rw [hframe]; rfl)
  have hpauses := pauses_of_step hreading.inv hreading.noReset hstep (by rw [hframe]; rfl) (by rw [hframe]; rfl)
    (by rw [hframe]; rfl) (by rw [hframe]; rfl)
  refine ⟨_, hstep, h.reads.trans ⟨hpauses, by rw [hframe]; rfl, by rw [hframe]; rfl⟩, ?_, ?_⟩
  · exact
      { inv := hpauses.inv, noReset := hpauses.noReset, ready := hst, outside := by rw [hframe]; rfl
        keeps := by rw [hframe]; exact hreading.keeps, free := by rw [hframe]; exact h.free }
  · rw [hframe]
    exact congrArg List.tail hreading.stream

theorem decodeTokens_eq_emptyLine {toks : List Token} {rest' : List Byte} (h : decodeTokens toks rest = .emptyLine rest') :
    toks = [] ∧ rest = rest' := by
  cases toks with
  | nil => exact ⟨rfl, Decoded.emptyLine.inj h⟩
  | cons cmd fields =>
    rw [decodeTokens] at h
    split at h <;> cases h

theorem decodeTokens_eq_malformed {toks : List Token} {rest' : List Byte} (h : decodeTokens toks rest = .malformed cause rest') :
    rest = rest' ∧ ∃ cmd fields, toks = cmd :: fields ∧ parseTokens cmd fields = .error cause := by
  cases toks with
  | nil => cases h
  | cons cmd fields =>
    rw [decodeTokens] at h
    split at h
    · cases h
    · next c hc =>
      cases h
      exact ⟨rfl, cmd, fields, rfl, hc⟩

end

theorem pauses_cells {s t : State} (h : s.pauses t) : t.chip.cells = s.chip.cells := by
  obtain ⟨held, hchip⟩ := h.chip
  rw [hchip]

/-- Settles O55: without a token the block is in `Ready` at the LF. -/
theorem blankLineSkipped : Obligations.BlankLineSkipped := by
  intro s rest hawaits hdecode
  obtain ⟨line, rest', htokens, hcomes⟩ := hawaits.readsTokens (by rw [hdecode]; exact nofun)
  obtain ⟨hnone, rfl⟩ := decodeTokens_eq_emptyLine (htokens.symm.trans hdecode)
  rw [hnone] at hcomes
  obtain ⟨n, t, hn, hends⟩ := hcomes
  obtain ⟨u, hstep, hreads, hnext, hrest⟩ := State.endsLine.skipped hends rfl
  exact ⟨n + 1, u, runs_snoc hn hstep, hnext, hrest, hreads.cause, hreads.output, hreads.pauses.bus, hreads.pauses.eng,
    pauses_cells hreads.pauses⟩

/-! ### A malformed line -/

section
variable {s t : State} {p : LineParse} {i : Instr} {cause : Cause} {rest : List Byte}

/-- The LF of a line that has no row for it is the error (R105). -/
theorem State.endsLine.rejected (h : s.endsLine p rest t) (hp : p.incomplete) :
    ∃ n u, runs n t = .next u ∧ s.rejected .noRule rest u := by
  obtain ⟨cur, q, hreading⟩ := h.inLine
  obtain ⟨v, hline, rfl⟩ := h.parsed
  have hcause : t.byteCause asciiLF = some .noRule := by
    unfold State.byteCause
    rw [if_pos (.inr rfl), hline]
    exact (if_pos (classOf_eq_lf_iff.mpr rfl)).trans (lineCause_eq_some_iff.mpr ⟨rfl, hp⟩)
  obtain ⟨n, u, hn, hu⟩ := hreading.rejects h.accepts hcause List.not_mem_nil rfl
  exact ⟨n, u, hn, h.reads.rejected hu⟩

theorem State.rejected.awaitsLine (h : s.rejected cause rest t) : t.awaitsLine :=
  ⟨h.pauses.inv, h.pauses.noReset, h.ready, h.outside, h.keeps, h.free⟩

/-- A line whose tokens mean an error is rejected with its cause. -/
theorem State.lineComesTo.rejected {ts : List Token} (h : s.lineComesTo (p.reads ts) rest) (hmeans : p.means ts (.error cause)) :
    ∃ n t, runs n s = .next t ∧ s.rejected cause rest t := by
  obtain hreads | ⟨rfl, q, hreads, hincomplete⟩ := hmeans
  · rw [hreads] at h
    exact h
  · rw [hreads] at h
    obtain ⟨n, t, hn, hends⟩ := h
    obtain ⟨m, u, hm, hu⟩ := State.endsLine.rejected hends hincomplete
    exact ⟨n + m, u, (runs_add hn).trans hm, hu⟩

end

/-- Settles O54: the first bad token or the LF raises the cause that the decoder gives. -/
theorem malformedAnswered : Obligations.MalformedAnswered := by
  intro s cause rest hawaits hdecode
  obtain ⟨line, rest', htokens, hcomes⟩ := hawaits.readsTokens (by rw [hdecode]; exact nofun)
  obtain ⟨rfl, cmd, fields, htoks, hparse⟩ := decodeTokens_eq_malformed (htokens.symm.trans hdecode)
  have hmeans := means_tokens htoks
  rw [hparse] at hmeans
  obtain ⟨n, t, hn, ht⟩ := State.lineComesTo.rejected hcomes hmeans
  exact ⟨n, t, hn, ht.awaitsLine, ht.stream, ht.cause, ht.output, ht.pauses.bus, ht.pauses.eng, pauses_cells ht.pauses⟩

/-! ### A request -/

theorem dumpCells_eq (m : Memory) (n : Nat) : dumpCells m n = (List.range n).flatMap fun a => hex2 (readCell m a) := by
  induction n with
  | zero => rfl
  | succ n ih => rw [dumpCells, ih, List.range_succ, List.flatMap_append, List.flatMap_singleton]

/-- The least address of a cell that is not blank is one only. -/
theorem firstNonblank_eq {m : Memory} {n stop : Nat} (hle : stop ≤ n) (hbelow : ∀ a, a < stop → readCell m a = 0x00#8)
    (hat : stop < n → readCell m stop ≠ 0x00#8) : firstNonblank m n = stop := by
  obtain ⟨hle', hbelow', hat'⟩ := firstNonblank_spec m n
  obtain hlt | heq | hgt := lt_trichotomy (firstNonblank m n) stop
  · exact absurd (hbelow _ hlt) (hat' (hlt.trans_le hle))
  · exact heq
  · exact absurd (hbelow' _ hgt) (hat (hgt.trans_le hle'))

section
variable {s t : State} {p : LineParse} {i : Instr} {rest : List Byte}

/-- Every command answers its whole response, and leaves the cells as the closed form says (30_encoding.md R83,
42_programming_engine.md R141). -/
theorem State.begins.responds (h : s.begins i) (hmatch : i ≠ .version → s.chip.socket.matches (profileOf i) = true) :
    ∃ n t, runs n s = .next t ∧ s.answered t (responseOf i s.chip.cells s.chip.draws) ∧
      ∀ a, readCell t.chip.cells a = cellAfter i s.chip.cells s.chip.draws a := by
  cases i with
  | version =>
    obtain ⟨-, -, t, hn, hanswered, -, -, hcells, -⟩ := versionResult.2 s h
    exact ⟨2, t, hn, hanswered, fun a => by rw [hcells]; rfl⟩
  | readAll chip =>
    obtain ⟨-, n, t, hn, hanswered, -, -, hcells, -⟩ := readAllResult s chip h (hmatch nofun)
    refine ⟨n, t, hn, ?_, fun a => by rw [hcells]; rfl⟩
    rw [responseOf, dumpCells_eq]
    exact hanswered
  | blankCheck chip =>
    obtain ⟨-, n, t, stop, hn, hle, hbelow, hat, hanswered, -, -, hcells, -⟩ := blankCheckResult s chip h (hmatch nofun)
    refine ⟨n, t, hn, ?_, fun a => by rw [hcells]; rfl⟩
    rw [responseOf, firstNonblank_eq hle hbelow hat]
    exact hanswered
  | readByte chip addr =>
    obtain ⟨-, n, t, hn, hanswered, -, -, hcells, -⟩ := readByteResult s chip addr h (hmatch nofun)
    exact ⟨n, t, hn, hanswered, fun a => by rw [hcells]; rfl⟩
  | program chip addr value =>
    obtain ⟨-, n, t, hn, hanswered, hcells, -⟩ := programResult s chip addr value h (hmatch nofun)
    refine ⟨n, t, hn, hanswered, fun a => (hcells a).trans ?_⟩
    rw [cellAfter]
    split
    · next ha => rw [ha]
    · rfl
  | simulate chip addr value =>
    obtain ⟨-, n, t, hn, hanswered, hcells, -⟩ := simulateResult s chip addr value h (hmatch nofun)
    exact ⟨n, t, hn, hanswered, fun a => by rw [hcells]; rfl⟩

/-- The LF of a request starts its command. -/
theorem State.endsLine.begins (h : s.endsLine p rest t) (hp : p.starts i) : t.begins i := by
  obtain ⟨cur, q, hreading⟩ := h.inLine
  obtain ⟨v, hline, rfl⟩ := h.parsed
  exact ⟨hreading.inv, hreading.noReset, hreading.keeps, h.accepts, v, hline, hp⟩

/-- After the answer the queue drains and the next line is awaited. -/
theorem State.answered.drains {response : List Byte} (h : s.answered t response) :
    ∃ n u, runs n t = .next u ∧ u.awaitsLine ∧ t.waitsTo u := by
  obtain ⟨n, u, hn, hwaits, hfree⟩ := Machine.drains h.inv h.ended h.noReset
  refine ⟨n, u, hn, ?_, hwaits⟩
  refine ⟨hwaits.inv, hwaits.noReset, hwaits.skips.st.trans h.ready, ?_, hwaits.discarding.trans h.keeps, hfree⟩
  rw [hwaits.skips.lexer, h.lexer]
  rfl

end

/-- Settles O53: the tokens bring the command to its LF, the command answers, and the queue drains. -/
theorem requestAnswered : Obligations.RequestAnswered := by
  intro s i rest hawaits hdecode hmatch
  obtain ⟨line, rest', htokens, hcomes⟩ := hawaits.readsTokens (by rw [hdecode]; exact nofun)
  obtain ⟨rfl, cmd, fields, htoks, hparse⟩ := decodeTokens_rest (htokens.symm.trans hdecode)
  have hmeans := means_tokens htoks
  rw [hparse] at hmeans
  obtain ⟨q, hreads, hstarts⟩ := hmeans
  rw [hreads] at hcomes
  obtain ⟨n, t, hn, hends⟩ := hcomes
  have hends : s.endsLine q rest t := hends
  obtain ⟨held, hchip⟩ := hends.reads.pauses.chip
  obtain ⟨cur, p, hreading⟩ := hends.inLine
  obtain ⟨m, u, hm, hanswered, hcells⟩ := (hends.begins hstarts).responds (by rw [hchip]; exact hmatch)
  obtain ⟨k, v, hk, hnext, hwaits⟩ := hanswered.drains
  refine ⟨n + (m + k), v, (runs_add hn).trans ((runs_add hm).trans hk), hnext, ?_, ?_, ?_, fun a => ?_⟩
  · rw [hwaits.stream, hanswered.stream, hreading.stream]
    rfl
  · exact hwaits.skips.cause.trans hanswered.noCause
  · rw [hwaits.skips.output, hanswered.output, hends.reads.output, hchip]
  · rw [pauses_cells hwaits.skips.pauses, hcells, hchip]

end Sys2Proof.Machine
